-- ==== Sys2Proof/Word.lean ====
section
/-! DEFINITION. The word types of the DRE-416 and their plainest arithmetic. -/

namespace Sys2Proof

/-- A byte of the link or of a byte lane of the DRAM. -/
abbrev Byte := BitVec 8

/-- Two bytes: counters, tags, the frame and cell checks, gains on the wire. -/
abbrev Half := BitVec 16

/-- An audio sample, a signed 24-bit integer (Conventions, "Samples"). -/
abbrev Sample := BitVec 24

/-- A block number, 32 bits, wrapping (Conventions, "Block numbers"). -/
abbrev Block := BitVec 32

/-- A word of the delay memory (R1). -/
abbrev Word := BitVec 32

/-- A sample time index, taken modulo 2^37 (Conventions, "Sample time"). -/
abbrev Time := BitVec 37

/-- An accumulator, a signed sum of 56 bits (R49, R65). -/
abbrev Acc := BitVec 56

/-- The list of `f 0`, ..., `f (n - 1)`: a fixed number of like things. -/
def tab {α : Type} (n : Nat) (f : Nat → α) : List α := (List.range n).map f

end Sys2Proof
end

