-- ==== Sys2Proof/Syntax.lean ====
section
/-! DEFINITION. The commands of the DRE-416: one constructor for each row of spec/opcode_table.json. -/

namespace Sys2Proof

/-- One frame of the hall link (R141, Table 30, wire layout of section 10.7). -/
structure Frame where
  /-- Byte 0: the frame index, 0..31 in a sound frame. -/
  index : Byte
  /-- Byte 1: bit 0 is the damaged mark, the other bits are disregarded and forwarded as they arrived. -/
  flags : Byte
  /-- Bytes 2 to 5: the block number. -/
  block : Block
  /-- Bytes 6 to 389: 128 audio slots. -/
  slots : List Sample
  /-- Bytes 390 to 397: 8 control bytes. -/
  control : List Byte
  /-- Bytes 398 and 399: the frame check. -/
  check : Half
  deriving DecidableEq, Repr

/-- The commands. Those of the clocked blocks and of the records have no operand: what they act on stands in State
(log 2, log 3). -/
inductive Instr where
  /-- POWER_ON: the end of power-on, with the levels of POS1 and POS0 (R178, R179). -/
  | powerOn (pos1 pos0 : Bool)
  /-- RESET_PIN_ASSERT: the reset pin becomes asserted (R178). -/
  | resetPinAssert
  /-- RESET_PIN_RELEASE: the reset pin is released, with the levels of POS1 and POS0 (R178, R179). -/
  | resetPinRelease (pos1 pos0 : Bool)
  /-- FRAME_ARRIVAL: a frame arrives on LINK-IN, with the GUARD-B level at its arrival (R142, R114). -/
  | frameArrival (frame : Frame) (guardB : Bool)
  /-- FRAME_GAP_EXPIRY: the frame-gap timer runs out (R142). -/
  | frameGapExpiry
  /-- BURST_REQUEST: the tap engine hands over its next burst (R132). -/
  | burstRequest
  /-- BURST_SERVICE_END: the service of the burst in service ends (R134). -/
  | burstServiceEnd
  /-- FINISHING_COMPLETE: the FINISHING of the current pass completes (R54). -/
  | finishingComplete
  /-- REFRESH_DUE: the refresh timer runs out (R136). -/
  | refreshDue
  /-- REFRESH_END: the service of a refresh ends (R137). -/
  | refreshEnd
  /-- MEMORY_INIT_COMPLETE: the settle of the initialization ends (R127). -/
  | memoryInitComplete
  /-- MODE_SET_COMPLETE: the settle of the SETTING phase ends (R128). -/
  | modeSetComplete
  /-- SELF_REFRESH_ENTRY: the self-refresh entry command is issued (R130). -/
  | selfRefreshEntry
  /-- SELF_REFRESH_EXIT: the LEAVING sequence ends (R131). -/
  | selfRefreshExit
  /-- TAP_WRITE: the TAP-WRITE record at the head of the table-class queue executes (R21). -/
  | tapWrite
  /-- TAP_CLEAR: the TAP-CLEAR record at the head of the table-class queue executes (R22). -/
  | tapClear
  /-- COPY_ACTIVE: the COPY-ACTIVE record at the head of the table-class queue executes (R23). -/
  | copyActive
  /-- SWAP: the SWAP record at the head of the table-class queue is checked and becomes pending (R31). -/
  | swap
  /-- LINE_MAP: the LINE-MAP record at the head of the table-class queue executes (R6). -/
  | lineMap
  /-- OUTPUT_MAP: the OUTPUT-MAP record at the head of the table-class queue executes (R27). -/
  | outputMap
  /-- MEMORY_SETUP: the MEMORY-SETUP record at the head of the table-class queue executes (R126). -/
  | memorySetup
  /-- TAP_GAIN: the TAP-GAIN record at the head of the live-class queue executes (R24). -/
  | tapGain
  /-- MASTER_GAIN: the MASTER-GAIN record at the head of the live-class queue executes (R84). -/
  | masterGain
  /-- OVERRIDE: the OVERRIDE record at the head of the live-class queue executes (R121). -/
  | override
  /-- GUARD_SET: the GUARD-SET record at the head of the live-class queue executes (R117). -/
  | guardSet
  /-- GUARD_RELEASE: the GUARD-RELEASE record at the head of the live-class queue executes (R118). -/
  | guardRelease
  /-- GENERATOR_SET: the GENERATOR-SET record at the head of the live-class queue executes (R103, R104). -/
  | generatorSet
  /-- GENERATOR_LOAD: the GENERATOR-LOAD record at the head of the live-class queue executes (R105). -/
  | generatorLoad
  /-- RAMP_SET: the RAMP-SET record at the head of the live-class queue executes (R79). -/
  | rampSet
  /-- CANCEL_SWAP: the CANCEL-SWAP record at the head of the live-class queue executes (R39). -/
  | cancelSwap
  /-- STATE_MUTE: a STATE record with request MUTE executes (R88). -/
  | stateMute
  /-- STATE_RUN: a STATE record with request RUN executes (R91). -/
  | stateRun
  /-- STATE_QUIESCE: a STATE record with request QUIESCE executes (R174). -/
  | stateQuiesce
  /-- STATE_WAKE: a STATE record with request WAKE executes (R175). -/
  | stateWake
  /-- STATUS_READ: the STATUS-READ record at the head of the live-class queue executes (R166). -/
  | statusRead
  /-- RESTART: a RESTART record whose assembly has completed executes (R168). -/
  | restart
  deriving DecidableEq, Repr

end Sys2Proof
end

