-- ==== Sys2Proof/Decode.lean ====
section
/-! DEFINITION. The commands that a word spells: spec/opcode_table.json gives no row any bits. -/

namespace Sys2Proof

/-- The command whose bits are `w`, by the table's bits: the table gives bits to none of its 36 rows. -/
def decodeTableWord (_nbits _w : Nat) : Option Instr := none

end Sys2Proof
end

