-- ==== Sys2Proof/Config.lean ====
section
/-! DEFINITION. The free values: what the manual leaves open. None has a body, so no proof can see a value of one. -/

namespace Sys2Proof

/-- FREE VALUE (log 6): the byte the DRAM holds at a byte address that the node has not written, after the
`powerCycle`-th power-on or reset. R1: "Power-on leaves the DRAM content as the memory device holds it". -/
opaque Config.dramByte (powerCycle address : Nat) : Byte

/-- FREE VALUE (log 6): whether an unrefreshed DRAM keeps the byte at an address over the `powerCycle`-th power-on
or reset. R125: "What the device then holds is whatever it kept". -/
opaque Config.dramKeeps (powerCycle address : Nat) : Bool

/-- FREE VALUE (log 15): how many of the 512 values (channel by channel, sample by sample) the FINISHING of the pass
with this serial had formed when it was abandoned. R76: "Increments of the saturation counters already made by it
stand". -/
opaque Config.finishingProgress (passSerial : Nat) : Nat

end Sys2Proof
end

