-- ==== Sys2Proof/Machine/State.lean ====
section
/-! DEFINITION. The state of the DRE-416, block by block as chapter 0 draws it, and its value after power-on. -/

namespace Sys2Proof.Machine

/-! ### Names the manual gives to sets of values -/

/-- Link states (R142). -/
inductive LinkState where
  | seeking | locked | lost
  deriving DecidableEq, Repr

/-- The frame-gap timer: stopped, or running with 1.5 frame periods or with one (R142). -/
inductive GapTimer where
  | stopped | oneAndHalfPeriods | onePeriod
  deriving DecidableEq, Repr

/-- Node states (R173). -/
inductive NodeState where
  | run | muting | muted | quiescent
  deriving DecidableEq, Repr

/-- Operations of Table 35. -/
inductive Op where
  | tapWrite | tapClear | copyActive | swap | lineMap | outputMap | memorySetup
  | tapGain | masterGain | override | guardSet | guardRelease | generatorSet | generatorLoad | rampSet
  | cancelSwap | state | statusRead | restart
  deriving DecidableEq, Repr

/-- Outcomes of a record (Table 40). -/
inductive RecordOutcome where
  | done | doneWithClamps | late | busy | malformed | order | truncated | clipped | cancelled
  deriving DecidableEq, Repr

/-- The two tap banks (R16). -/
abbrev BankNo := Fin 2

/-- Ramp units (R78). -/
inductive RampUnit where
  | a | b
  deriving DecidableEq, Repr

/-- The trigger of a swap (R31). -/
inductive Trigger where
  | next
  | atBlock (n : Block)
  | onCompare (k : Fin 4)
  deriving DecidableEq, Repr

/-- The fade of a swap (R31). -/
inductive Fade where
  | exponent (e : Nat)
  | cut
  deriving DecidableEq, Repr

/-- Override modes (Table 9). -/
inductive OverrideMode where
  | follow | silence | lineMonitor
  deriving DecidableEq, Repr

/-- Sources of a delay line (Table 4). -/
inductive LineSource where
  | none
  | ring (slot : Fin 128)
  | return (channel : Fin 16)
  deriving DecidableEq, Repr

/-- Pass states (Table 13). -/
inductive PassState where
  | idle | writing | tapping | finishing
  deriving DecidableEq, Repr

/-- Generator modes (Table 18). -/
inductive GenMode where
  | off | ramp | single | triangle
  deriving DecidableEq, Repr

/-- Directions of a generator (Table 18). -/
inductive Direction where
  | up | down
  deriving DecidableEq, Repr

/-- Guard sources (R108). -/
inductive GuardSource where
  | a | b
  deriving DecidableEq, Repr

/-- Guard modes (Table 22). -/
inductive GuardMode where
  | latch | block
  deriving DecidableEq, Repr

/-- Guard actions (Table 22): MUTE, or ATTENUATE s. -/
inductive GuardAction where
  | mute
  | attenuate (s : Nat)
  deriving DecidableEq, Repr

/-- Memory states with their phases (Table 25). -/
inductive MemState where
  | uninit | initializing | ready | draining | setting | entering | held | leaving
  deriving DecidableEq, Repr

/-- The two refresh intervals, 7.8 µs and 3.9 µs (R126). -/
inductive Interval where
  | us78 | us39
  deriving DecidableEq, Repr

/-- The refresh timer: stopped, running with the interval it was started with, or run out with its refresh-due event
held (R136). -/
inductive RefreshTimer where
  | stopped
  | running (interval : Interval)
  | expired
  deriving DecidableEq, Repr

/-- What the delay memory controller is serving: nothing, the oldest burst, one refresh, or the commands of one
sequence of R127, R128, R130 or R131. -/
inductive Service where
  | none | burst | refresh | initialization | modeSet | selfRefreshEntry | leaving
  deriving DecidableEq, Repr

/-! ### Link port -/

/-- The cell being received: the control bytes so far and whether a position of it was damaged or missing (R153). -/
structure CellRx where
  bytes : List Byte
  bad : Bool
  deriving DecidableEq, Repr

/-- One sample of each of the 128 slots, at one sample time (R149). -/
abbrev SlotRow := List Sample

/-- An input block: the rows of its positions, from position 0 on (R150). Empty is the list without rows. -/
abbrev InputBlock := List SlotRow

/-- The link port (R142, R149, R150, R153, R154, R156). -/
structure Link where
  state : LinkState
  expected : Nat
  block : Block
  badRun : Nat
  gapTimer : GapTimer
  lostZero : Bool
  held : SlotRow
  filling : InputBlock
  complete : InputBlock
  cellRx : Option CellRx
  cellTx : Option (List Byte)
  damagedFrames : Half
  missingFrames : Half
  lossEvents : Half
  damagedCells : Half
  deriving DecidableEq, Repr

/-! ### Record engine -/

/-- A complete record (section 10.2): tag, operation, notify flag, body. -/
structure Record where
  tag : Half
  op : Op
  notify : Bool
  body : List Byte
  deriving DecidableEq, Repr

/-- An assembly in progress (section 10.2). -/
structure Assembly where
  tag : Half
  op : Op
  notify : Bool
  total : Nat
  bytes : List Byte
  next : Nat
  deriving DecidableEq, Repr

/-- The counts of a completion notice and its first index (R169, Table 38). -/
structure Counts where
  written : Nat := 0
  clamped : Nat := 0
  rejected : Nat := 0
  foreign : Nat := 0
  first : Nat := 0
  deriving DecidableEq, Repr

/-- The notices (Tables 37 to 39). A STATUS notice holds its formed body, the others their fields. -/
inductive Notice where
  | completion (tag : Half) (op : Byte) (outcome : RecordOutcome) (counts : Counts) (block : Block)
  | guard (tag : Half) (group : Fin 4) (source : GuardSource) (tripped : Bool) (block : Block) (peak count : Nat)
  | variation (gen : Fin 4) (ended : Bool) (block : Block) (counter : Nat) (dir : Direction)
  | link (renumber : Bool) (new former gap : Block)
  | cut (block : Block) (done due : Nat)
  | swap (tag : Half) (block : Block)
  | status (tag : Half) (body : List Byte)
  | restarted (tag : Half) (block : Block)
  deriving DecidableEq, Repr

/-- A MUTE record on the awaiting-mute list: its tag and notify flag (R88). -/
structure AwaitingMute where
  tag : Half
  notify : Bool
  deriving DecidableEq, Repr

/-- The record engine (chapter 10, R88, R89, R173). -/
structure Records where
  assembly : Option Assembly
  live : List Record
  table : List Record
  restarts : List Record
  awaitingMute : List AwaitingMute
  notices : List Notice
  overflow : Bool
  node : NodeState
  drain : Option Nat
  setup : Option Bool
  deriving DecidableEq, Repr

/-! ### Table store -/

/-- A tap entry of status ACTIVE (Table 8). -/
structure TapEntry where
  channel : Fin 16
  line : Fin 64
  delay : Nat
  fraction : Byte
  gain : Half
  rise : RampUnit
  fall : RampUnit
  gen : Option (Fin 4)
  depth : Byte
  deriving DecidableEq, Repr

/-- A tap bank of 1,024 entries: `none` is VACANT, `some` is ACTIVE (R16). -/
abbrev Bank := List (Option TapEntry)

/-- The pending swap (section 2.7). -/
structure PendingSwap where
  trigger : Trigger
  fade : Fade
  late : Bool
  tag : Half
  notify : Bool
  deriving DecidableEq, Repr

/-- A channel table entry (Table 9). -/
structure Channel where
  slot : Option (Fin 128)
  group : Option (Fin 4)
  setGain : Half
  override : OverrideMode
  monitorLine : Fin 64
  deriving DecidableEq, Repr

/-- The table store (R16, R20, R26, R31, R37). -/
structure Store where
  bank0 : Bank
  bank1 : Bank
  active : BankNo
  fade : Bool
  endReady : Bool
  pointer : Nat
  pointerLocked : Bool
  swap : Option PendingSwap
  channels : List Channel
  deriving DecidableEq, Repr

/-! ### Delay-line controller -/

/-- The delay-line controller (R5, R12). -/
structure Lines where
  map : List LineSource
  floor : Block
  deriving DecidableEq, Repr

/-! ### Tap engine -/

/-- The pass snapshot (R43), with the guard-group copy of the pass's boundary (R29) and the report of R54. `overrides` holds
each channel's override mode and `monitors` the line of each channel under LINE-MONITOR. -/
structure Snapshot where
  counters : List Nat
  gains0 : List (Option (Int × Int))
  gains1 : List (Option (Int × Int))
  masters : List (Int × Int)
  overrides : List OverrideMode
  monitors : List (Option (Fin 64))
  active : BankNo
  fade : Bool
  due : Nat
  floor : Block
  groups : List (Option (Fin 4))
  outgoingIdle : Bool
  deriving DecidableEq, Repr

/-- A write stage: what it stores from (R7, R8, R150) and how many of its 256 bursts are handed over (R44). -/
structure WriteStage where
  number : Block
  map : List LineSource
  input : InputBlock
  inserted : InputBlock
  handed : Nat
  deriving DecidableEq, Repr

/-- The read of one LINE-MONITOR channel: bursts handed over and words returned (R47). -/
structure MonitorRead where
  channel : Fin 16
  line : Fin 64
  handed : Nat
  words : List Word
  deriving DecidableEq, Repr

/-- The read of one tap: its entry, its effective delay and fraction, its bursts handed over and its words returned
(R48, R49, R61). -/
structure TapRead where
  bank : BankNo
  index : Nat
  channel : Fin 16
  line : Fin 64
  delay : Nat
  fraction : Nat
  handed : Nat
  words : List Word
  deriving DecidableEq, Repr

/-- The current pass (R41). -/
structure Pass where
  number : Block
  serial : Nat
  snapshot : Snapshot
  write : WriteStage
  served : Nat
  monitors : List MonitorRead
  reads : List TapRead
  done : Nat
  deriving DecidableEq, Repr

/-- An ending pass (R41): `write` is what a pass cut in WRITING still hands over. -/
structure EndingPass where
  number : Block
  serial : Nat
  write : Option WriteStage
  deriving DecidableEq, Repr

/-- The tap cursor: bank and index of the next entry (R46); 1,024 after the last entry of the last bank, and left where it
stands between passes (log 31). -/
structure Cursor where
  bank : BankNo
  index : Nat
  deriving DecidableEq, Repr

/-- The tap engine (R41, R49, R52). `number` keeps the last pass's number while there is no current pass (log 30). -/
structure TapEngine where
  state : PassState
  number : Block
  pass : Option Pass
  ending : List EndingPass
  acc : List (List Acc)
  cursor : Cursor
  cutCount : Half
  cutRun : Half
  deriving DecidableEq, Repr

/-! ### Gain ramp block -/

/-- A ramp record: start gain, target gain, length, step count (R80). -/
structure Ramp where
  g0 : Int
  g1 : Int
  len : Nat
  p : Nat
  deriving DecidableEq, Repr

/-- The gain ramp block (R17, R78, R87). -/
structure Ramps where
  unitA : Nat
  unitB : Nat
  taps0 : List (Option Ramp)
  taps1 : List (Option Ramp)
  masters : List Ramp
  deriving DecidableEq, Repr

/-! ### Variation generators -/

/-- One variation generator (Table 18). -/
structure Generator where
  mode : GenMode
  period : Nat
  pendingPeriod : Nat
  counter : Nat
  dir : Direction
  compareValue : Nat
  compareDir : Direction
  notice : Bool
  postscale : Nat
  postCount : Nat
  deriving DecidableEq, Repr

/-! ### Output stage and loop guard -/

/-- An output buffer: 16 channels of 32 values, and the A verdict of each group (R55, R113). -/
structure OutBuffer where
  values : List (List Sample)
  verdicts : List Bool
  deriving DecidableEq, Repr

/-- One guard group (Table 22). -/
structure GuardGroup where
  aEnable : Bool
  aMode : GuardMode
  aAction : GuardAction
  threshold : Nat
  limit : Nat
  count : Nat
  aTripped : Bool
  bEnable : Bool
  bMode : GuardMode
  bAction : GuardAction
  bTripped : Bool
  deriving DecidableEq, Repr

/-- The block's copy of one channel's output slot and guard group (R29). -/
structure ChannelCopy where
  slot : Option (Fin 128)
  group : Option (Fin 4)
  deriving DecidableEq, Repr

/-- The output stage (R10, R29, R55, R72, R109, R114, R122). -/
structure Output where
  filling : OutBuffer
  insert : OutBuffer
  groups : List GuardGroup
  guardB : Bool
  silence : List Bool
  silenceNext : List (Option Bool)
  silencePending : List (Option Bool)
  saturation : List Half
  copy : List ChannelCopy
  recording : InputBlock
  recorded : InputBlock
  deriving DecidableEq, Repr

/-! ### Delay memory controller -/

/-- The part of its pass a burst belongs to (R132). -/
inductive Part where
  | writeStage
  | monitor (channel : Fin 16)
  | tap (bank : BankNo) (index : Nat)
  deriving DecidableEq, Repr

/-- The kind of a burst, with the 8 values of a write (R132). -/
inductive BurstKind where
  | read
  | write (values : List Sample)
  deriving DecidableEq, Repr

/-- A burst request (R132). Its bank, row and column follow from line and position by R3. -/
structure BurstRequest where
  kind : BurstKind
  line : Fin 64
  position : Fin 131072
  number : Block
  serial : Nat
  part : Part
  deriving DecidableEq, Repr

/-- The delay memory controller (R125, R126, R129, R132, R133, R136). `settingRefreshes` counts the refreshes that SETTING
still serves before its mode set: those owed when it began (R128, log 18). -/
structure MemController where
  state : MemState
  refreshCount : Nat
  interval : Interval
  latency : Nat
  latencyInForce : Nat
  bankTable : List (Option (Fin 4096))
  owed : Nat
  settingRefreshes : Nat
  timer : RefreshTimer
  queue : List BurstRequest
  service : Service
  periods : Nat
  selfRefresh : Bool
  deriving DecidableEq, Repr

/-! ### The whole machine -/

/-- The state of one node: the queue of commands, the pins, and the nine blocks. -/
structure State where
  pending : List Instr
  resetPin : Bool
  position : Fin 4
  linkOut : Option Frame
  link : Link
  records : Records
  store : Store
  lines : Lines
  tap : TapEngine
  ramps : Ramps
  gens : List Generator
  out : Output
  mem : MemController
  dram : List Host.Cell
  powerCycle : Nat
  passSerial : Nat
  deriving DecidableEq, Repr

/-- The reasons a step may stop with a fault. The manual names no fault of the node. -/
inductive Fault where
  /-- An access to a byte address outside the 32 MiB device. R3: "the controller issues no address outside it".
  Raised by no meaning, since a request's line and position always name a word of the device. Safe. -/
  | outsideDevice
  deriving DecidableEq, Repr

/-- The reasons a command may be refused. -/
inductive Refusal where
  /-- The command has no meaning yet. Raised by an arm of exec only, and by none at present. Safe. -/
  | notModelled (mnemonic : String)
  deriving DecidableEq, Repr

/-! ### Values after power-on, the reset pin or a RESTART record -/

/-- Table 33: the link port after power-on or the reset pin (expected index and bad-run count: log 9). -/
def Link.reset : Link where
  state := .seeking
  expected := 0
  block := 0
  badRun := 0
  gapTimer := .stopped
  lostZero := false
  held := List.replicate 128 0
  filling := []
  complete := []
  cellRx := none
  cellTx := none
  damagedFrames := 0
  missingFrames := 0
  lossEvents := 0
  damagedCells := 0

/-- R88, R160, R163, R170, R173: the record engine after power-on. -/
def Records.reset : Records where
  assembly := none
  live := []
  table := []
  restarts := []
  awaitingMute := []
  notices := []
  overflow := false
  node := .muted
  drain := none
  setup := none

/-- Table 9, last column. -/
def Channel.reset : Channel where
  slot := none
  group := none
  setGain := 32768
  override := .follow
  monitorLine := 0

/-- A bank of 1,024 VACANT entries. -/
def Bank.vacant : Bank := List.replicate 1024 none

/-- R16, R20, R26, R31, R37. -/
def Store.reset : Store where
  bank0 := Bank.vacant
  bank1 := Bank.vacant
  active := 0
  fade := false
  endReady := false
  pointer := 0
  pointerLocked := false
  swap := none
  channels := List.replicate 16 Channel.reset

/-- R5, R12. -/
def Lines.reset : Lines where
  map := List.replicate 64 .none
  floor := 0

/-- 16 × 32 cleared accumulators (R49). -/
def clearedAccumulators : List (List Acc) := List.replicate 16 (List.replicate 32 0)

/-- R41, R52 (the pass number: log 9). -/
def TapEngine.reset : TapEngine where
  state := .idle
  number := 0
  pass := none
  ending := []
  acc := clearedAccumulators
  cursor := ⟨0, 0⟩
  cutCount := 0
  cutRun := 0

/-- R87: a master ramp idle at 0. -/
def Ramp.idleAtZero : Ramp := ⟨0, 0, 1, 1⟩

/-- No ramp record for any of the 1,024 entries of a bank. -/
def noRamps : List (Option Ramp) := List.replicate 1024 none

/-- R78, R86, R87. -/
def Ramps.reset : Ramps where
  unitA := 3
  unitB := 5
  taps0 := noRamps
  taps1 := noRamps
  masters := List.replicate 16 Ramp.idleAtZero

/-- Table 18, last column. -/
def Generator.reset : Generator where
  mode := .off
  period := 1
  pendingPeriod := 1
  counter := 0
  dir := .up
  compareValue := 0
  compareDir := .up
  notice := false
  postscale := 1
  postCount := 0

/-- R55, R113: a buffer of zeros whose verdicts are CLEAR. -/
def OutBuffer.zeros : OutBuffer where
  values := List.replicate 16 (List.replicate 32 0)
  verdicts := List.replicate 4 false

/-- Table 22, last column. -/
def GuardGroup.reset : GuardGroup where
  aEnable := false
  aMode := .latch
  aAction := .mute
  threshold := 8388608
  limit := 8
  count := 0
  aTripped := false
  bEnable := false
  bMode := .latch
  bAction := .mute
  bTripped := false

/-- R29, R55, R72, R109, R122 (the GUARD-B sample: log 9). That the recorded inserted values of R10 are empty is the model's
own choice (log 37). -/
def Output.reset : Output where
  filling := OutBuffer.zeros
  insert := OutBuffer.zeros
  groups := List.replicate 4 GuardGroup.reset
  guardB := false
  silence := List.replicate 16 false
  silenceNext := List.replicate 16 none
  silencePending := List.replicate 16 none
  saturation := List.replicate 16 0
  copy := List.replicate 16 ⟨none, none⟩
  recording := []
  recorded := []

/-- R125, R126, R132, R133, R136 (the latency in force: log 8). -/
def MemController.reset : MemController where
  state := .uninit
  refreshCount := 8
  interval := .us78
  latency := 3
  latencyInForce := 3
  bankTable := List.replicate 4 none
  owed := 0
  settingRefreshes := 0
  timer := .stopped
  queue := []
  service := .none
  periods := 0
  selfRefresh := false

/-- The node at the end of power-on (R177, Table 43), with both straps low (log 5) and no command waiting. -/
def State.reset : State where
  pending := []
  resetPin := false
  position := 0
  linkOut := none
  link := Link.reset
  records := Records.reset
  store := Store.reset
  lines := Lines.reset
  tap := TapEngine.reset
  ramps := Ramps.reset
  gens := List.replicate 4 Generator.reset
  out := Output.reset
  mem := MemController.reset
  dram := []
  powerCycle := 0
  passSerial := 0

end Sys2Proof.Machine
end

