-- ==== Sys2Proof/Machine/Ops.lean ====
section
/-! DEFINITION. The shared operations: block updates, number comparisons, the delay memory, notices and completions. -/

namespace Sys2Proof.Machine

/-- What a command answers. -/
abbrev Out := Host.Outcome State Fault Refusal

/-! ### Updates of one block -/

def State.withLink (s : State) (x : Link) : State := { s with link := x }
def State.withRecords (s : State) (x : Records) : State := { s with records := x }
def State.withStore (s : State) (x : Store) : State := { s with store := x }
def State.withLines (s : State) (x : Lines) : State := { s with lines := x }
def State.withTap (s : State) (x : TapEngine) : State := { s with tap := x }
def State.withRamps (s : State) (x : Ramps) : State := { s with ramps := x }
def State.withGens (s : State) (x : List Generator) : State := { s with gens := x }
def State.withOut (s : State) (x : Output) : State := { s with out := x }
def State.withMem (s : State) (x : MemController) : State := { s with mem := x }
def State.withDram (s : State) (x : List Host.Cell) : State := { s with dram := x }
def State.withLinkOut (s : State) (x : Option Frame) : State := { s with linkOut := x }

/-- R178: while the reset pin is asserted every block is held, so a command changes nothing. -/
def State.running (s : State) (f : State → State) : Out := .next (if s.resetPin then s else f s)

/-! ### Counts and numbers -/

/-- A 16-bit counter that stops at 65,535, increased by `n` (R52, R72, R156). -/
def countUp (c : Half) (n : Nat) : Half := BitVec.ofNat 16 (min 65535 (c.toNat + n))

/-- Conventions: block a is before block b when (b − a) mod 2^32 read as signed is positive. -/
def blockBefore (a b : Block) : Bool := decide (0 < (b - a).toInt)

/-- Conventions: "After" is the converse. -/
def blockAfter (a b : Block) : Bool := blockBefore b a

/-- The sample time index 32·b + j, modulo 2^37 (Conventions). -/
def timeOf (b : Block) (j : Nat) : Time := BitVec.ofNat 37 (32 * b.toNat + j)

/-- Conventions: τ is earlier than τ' when (τ' − τ) mod 2^37 read as signed is positive. -/
def timeEarlier (t t' : Time) : Bool := decide (0 < (t' - t).toInt)

/-- R1: the line position of a time index. -/
def positionOf (t : Time) : Nat := t.toNat % 131072

/-- A line position from any number, modulo 131,072. -/
def linePosition (n : Nat) : Fin 131072 := ⟨n % 131072, Nat.mod_lt _ (by decide)⟩

/-- The first position of the line block of block b (R2). -/
def lineBlockPosition (b : Block) : Nat := 32 * b.toNat % 131072

/-- The other tap bank. -/
def otherBank (k : BankNo) : BankNo := if k = 0 then 1 else 0

/-- A 24-bit sample from an exact value within the sample range. -/
def sampleOf (z : Int) : Sample := BitVec.ofInt 24 z

/-! ### The delay memory -/

/-- 32 MiB, in bytes (chapter 0, R3). -/
def Memory.size : Nat := 33554432

/-- What an unlisted byte address reads as: no value, since the node has not written it (log 6). -/
def Memory.unlisted : Option Byte := none

/-- The byte the node wrote last at an address, if it wrote one. -/
def Memory.read : List Host.Cell → Nat → Option Byte
  | [], _ => Memory.unlisted
  | (b, v) :: rest, a => if a = b then some v else Memory.read rest a

/-- The memory with a byte written, kept in its canonical form. -/
def Memory.write : List Host.Cell → Nat → Byte → List Host.Cell
  | [], a, v => [(a, v)]
  | (b, w) :: rest, a, v =>
    if a < b then (a, v) :: (b, w) :: rest
    else if a = b then (a, v) :: rest
    else (b, w) :: Memory.write rest a v

/-- Addresses at or above `lo` and below the size, strictly rising. -/
def Memory.wfFrom : Nat → List Host.Cell → Bool
  | _, [] => true
  | lo, (a, _) :: rest => decide (lo ≤ a) && decide (a < Memory.size) && Memory.wfFrom (a + 1) rest

/-- The canonical form. An unlisted address holds no value, so no listed entry can equal it. -/
def Memory.wf (m : List Host.Cell) : Bool := Memory.wfFrom 0 m

/-- Table 3: the bank of a line position. -/
def bankOf (position : Nat) : Nat := position / 512 % 4

/-- Table 3: the row of a line position. -/
def rowOf (line position : Nat) : Nat := 64 * line + position / 2048

/-- Table 3: the column of a line position. -/
def columnOf (position : Nat) : Nat := position % 512

/-- The number of the word (bank, row, column), of 8,388,608 (R3; the order of banks and rows is log 7). -/
def wordNumber (bank row column : Nat) : Nat := (bank * 4096 + row) * 512 + column

/-- The word of a line position (R3). -/
def wordOf (line position : Nat) : Nat := wordNumber (bankOf position) (rowOf line position) (columnOf position)

/-- A byte of the device: what the node wrote, or the free value of log 6. -/
def dramByteAt (powerCycle : Nat) (m : List Host.Cell) (a : Nat) : Byte :=
  (Memory.read m a).getD (Config.dramByte powerCycle a)

/-- A word of the device; byte lane 0 is the least significant byte (log 7). -/
def dramWord (powerCycle : Nat) (m : List Host.Cell) (w : Nat) : Word :=
  dramByteAt powerCycle m (4 * w + 3) ++ dramByteAt powerCycle m (4 * w + 2)
    ++ dramByteAt powerCycle m (4 * w + 1) ++ dramByteAt powerCycle m (4 * w)

/-- The device with one word stored. -/
def storeWord (m : List Host.Cell) (w : Nat) (v : Word) : List Host.Cell :=
  Memory.write (Memory.write (Memory.write (Memory.write m
    (4 * w) (v.extractLsb' 0 8)) (4 * w + 1) (v.extractLsb' 8 8))
    (4 * w + 2) (v.extractLsb' 16 8)) (4 * w + 3) (v.extractLsb' 24 8)

/-- R3: the word of the `i`-th position of a burst (R4: the eight lie in consecutive columns of one row). -/
def burstWord (line : Fin 64) (position : Fin 131072) (i : Nat) : Nat := wordOf line (linePosition (position + i)).val

/-- R4, R134: the 8 words of a read burst, in order of position. -/
def readBurst (powerCycle : Nat) (m : List Host.Cell) (line : Fin 64) (position : Fin 131072) : List Word :=
  tab 8 fun i => dramWord powerCycle m (burstWord line position i)

/-- R1, R4, R134: a write burst stores its 8 values, sign-extended. -/
def writeBurst (m : List Host.Cell) (line : Fin 64) (position : Fin 131072) (values : List Sample) : List Host.Cell :=
  (List.range 8).foldl (fun m i => storeWord m (burstWord line position i) ((values.getD i 0).signExtend 32)) m

/-- R1: the sample a word stands for, bits 23..0. -/
def sampleOfWord (w : Word) : Sample := w.setWidth 24

/-- R125, log 6: what the device holds after being left unrefreshed. -/
def State.unrefreshed (s : State) : List Host.Cell := s.dram.filter fun c => Config.dramKeeps s.powerCycle c.1

/-! ### The block in progress, notices and completions -/

/-- R12: the block in progress, or none when the link is not LOCKED. -/
def State.blockInProgress (s : State) : Option Block := if s.link.state = .locked then some s.link.block else none

/-- The block in progress as notices carry it: 0 if the link is not LOCKED (R169). -/
def State.noticeBlock (s : State) : Block := s.blockInProgress.getD 0

/-- R12: the floor set to the block in progress, or left as it stands. -/
def State.floorToProgress (s : State) : State := s.withLines { s.lines with floor := s.blockInProgress.getD s.lines.floor }

/-- R170: a notice joins the tail, or is dropped and sets the overflow flag. -/
def Records.queueNotice (r : Records) (n : Notice) : Records :=
  if r.notices.length < 8 then { r with notices := r.notices ++ [n] } else { r with overflow := true }

def State.queueNotice (s : State) (n : Notice) : State := s.withRecords (s.records.queueNotice n)

/-- Several notices, in order. -/
def State.queueNotices (s : State) (ns : List Notice) : State :=
  s.withRecords (ns.foldl Records.queueNotice s.records)

/-- Table 35: the code of an operation. -/
def Op.code : Op → Byte
  | .tapWrite => 0x10 | .tapClear => 0x11 | .copyActive => 0x12 | .swap => 0x13 | .lineMap => 0x14
  | .outputMap => 0x15 | .memorySetup => 0x16 | .tapGain => 0x20 | .masterGain => 0x21 | .override => 0x22
  | .guardSet => 0x23 | .guardRelease => 0x24 | .generatorSet => 0x25 | .generatorLoad => 0x26 | .rampSet => 0x27
  | .cancelSwap => 0x28 | .state => 0x29 | .statusRead => 0x2A | .restart => 0x2B

/-- R169: a completion in block `block` queues its notice, a DONE only where the notify flag is set. -/
def Records.complete (r : Records) (block : Block) (tag : Half) (op : Op) (notify : Bool) (outcome : RecordOutcome)
    (counts : Counts) : Records :=
  if outcome = .done ∧ notify = false then r else r.queueNotice (.completion tag op.code outcome counts block)

def State.complete (s : State) (tag : Half) (op : Op) (notify : Bool) (outcome : RecordOutcome) (counts : Counts) : State :=
  s.withRecords (s.records.complete s.noticeBlock tag op notify outcome counts)

/-- The head of the table-class queue leaves it (R163). -/
def State.popTable (s : State) : State := s.withRecords { s.records with table := s.records.table.drop 1 }

/-- The head of the live-class queue leaves it (R163). -/
def State.popLive (s : State) : State := s.withRecords { s.records with live := s.records.live.drop 1 }

/-- The head of the table-class queue completes. -/
def State.completeTable (s : State) (r : Record) (outcome : RecordOutcome) (counts : Counts) : State :=
  s.popTable.complete r.tag r.op r.notify outcome counts

/-- The head of the live-class queue completes. -/
def State.completeLive (s : State) (r : Record) (outcome : RecordOutcome) (counts : Counts) : State :=
  s.popLive.complete r.tag r.op r.notify outcome counts

/-- R163, R164: what a record of the table class does when it stands at the head; nothing if another record or none
does (log 2). -/
def State.atTableHead (s : State) (op : Op) (f : Record → State) : State :=
  match s.records.table with
  | r :: _ => if r.op = op then f r else s
  | [] => s

/-- R163, R164: the same for the live class. -/
def State.atLiveHead (s : State) (op : Op) (f : Record → State) : State :=
  match s.records.live with
  | r :: _ => if r.op = op then f r else s
  | [] => s

/-! ### Banks and roles -/

def Store.bank (t : Store) (k : BankNo) : Bank := if k = 0 then t.bank0 else t.bank1

def Store.withBank (t : Store) (k : BankNo) (b : Bank) : Store :=
  if k = 0 then { t with bank0 := b } else { t with bank1 := b }

def Ramps.taps (r : Ramps) (k : BankNo) : List (Option Ramp) := if k = 0 then r.taps0 else r.taps1

def Ramps.withTaps (r : Ramps) (k : BankNo) (x : List (Option Ramp)) : Ramps :=
  if k = 0 then { r with taps0 := x } else { r with taps1 := x }

/-- The bank that is not ACTIVE: SHADOW outside a fade, OUTGOING during one (R16). -/
def Store.idleBank (t : Store) : BankNo := otherBank t.active

/-- R179: the local channel of a global channel number, when it lies in the node's range 16·p .. 16·p + 15. -/
def State.localChannel (s : State) (g : Nat) : Option (Fin 16) :=
  if g / 16 = s.position.val then some ⟨g % 16, Nat.mod_lt _ (by decide)⟩ else none

def Store.channel (t : Store) (c : Nat) : Channel := t.channels.getD c Channel.reset

end Sys2Proof.Machine
end

