-- ==== Sys2Proof/Machine/Operands.lean ====
section
/-! DEFINITION. The wire layouts of section 10.7: bytes, frames, cells, record bodies, tap entries, notices. -/

namespace Sys2Proof.Machine

/-! ### Fields of several bytes, most significant first (Conventions, "Byte order") -/

def byteAt (b : List Byte) (i : Nat) : Nat := (b.getD i 0).toNat
def field2 (b : List Byte) (i : Nat) : Nat := 256 * byteAt b i + byteAt b (i + 1)
def field3 (b : List Byte) (i : Nat) : Nat := 65536 * byteAt b i + field2 b (i + 1)
def field4 (b : List Byte) (i : Nat) : Nat := 65536 * field2 b i + field2 b (i + 2)

def put1 (n : Nat) : List Byte := [BitVec.ofNat 8 n]
def put2 (n : Nat) : List Byte := [BitVec.ofNat 8 (n / 256), BitVec.ofNat 8 n]
def put3 (n : Nat) : List Byte := BitVec.ofNat 8 (n / 65536) :: put2 n
def put4 (n : Nat) : List Byte := put2 (n / 65536) ++ put2 n

/-- The 16-bit words of a list of bytes, summed (R141, section 10.7). -/
def wordSum : List Byte → Nat
  | a :: b :: rest => 256 * a.toNat + b.toNat + wordSum rest
  | [a] => 256 * a.toNat
  | [] => 0

/-- The check word that makes a sum 0 modulo 65,536. -/
def checkFor (sum : Nat) : Half := BitVec.ofNat 16 (65536 - sum % 65536)

/-! ### Frames -/

end Sys2Proof.Machine

namespace Sys2Proof

open Machine

/-- The samples of the 128 slots (a missing one is 0: log 24). -/
def Frame.row (f : Frame) : SlotRow := tab 128 fun n => f.slots.getD n 0

/-- The 8 control bytes (a missing one is 0: log 24). -/
def Frame.controlRow (f : Frame) : List Byte := tab 8 fun n => f.control.getD n 0

/-- The body of a frame, bytes 0 to 397. -/
def Frame.body (f : Frame) : List Byte :=
  f.index :: f.flags :: (put4 f.block.toNat ++ f.row.flatMap (fun x => put3 x.toNat) ++ f.controlRow)

/-- Bit 0 of byte 1: the damaged mark. -/
def Frame.marked (f : Frame) : Bool := f.flags.getLsbD 0

/-- R141: the frame check holds. -/
def Frame.checkHolds (f : Frame) : Bool := (wordSum f.body + f.check.toNat) % 65536 == 0

/-- R141: a frame is good when its check holds and its damaged mark is clear. -/
def Frame.good (f : Frame) : Bool := f.checkHolds && !f.marked

/-- A frame with its check written afresh. -/
def Frame.fresh (f : Frame) : Frame := { f with check := checkFor (wordSum f.body) }

end Sys2Proof

namespace Sys2Proof.Machine

/-! ### Cells -/

/-- R153: the cell check holds over the 256 bytes. -/
def cellCheckHolds (b : List Byte) : Bool := wordSum b % 65536 == 0

/-- The 256 bytes of a cell from its first 254. -/
def cellOf (b : List Byte) : List Byte :=
  let head := tab 254 fun i => b.getD i 0
  head ++ put2 (checkFor (wordSum head)).toNat

/-- A fragment of a COMMAND cell (R159). -/
structure Fragment where
  tag : Half
  index : Nat
  count : Nat
  last : Bool
  payload : List Byte
  deriving DecidableEq, Repr

def fragmentOf (b : List Byte) : Fragment where
  tag := BitVec.ofNat 16 (field2 b 2)
  index := field2 b 4
  count := byteAt b 6
  last := (b.getD 7 0).getLsbD 0
  payload := (b.drop 8).take 246

/-- R158: whether bit `p` of a destination mask names position `p`. -/
def names (mask : Byte) (p : Fin 4) : Bool := mask.getLsbD p.val

/-- Table 35: the operation of a code, if it is one. -/
def opOf (code : Byte) : Option Op :=
  [Op.tapWrite, .tapClear, .copyActive, .swap, .lineMap, .outputMap, .memorySetup, .tapGain, .masterGain, .override,
    .guardSet, .guardRelease, .generatorSet, .generatorLoad, .rampSet, .cancelSwap, .state, .statusRead,
    .restart].find? fun o => o.code == code

/-- Table 35: whether an operation is of the table class. -/
def Op.isTable : Op → Bool
  | .tapWrite | .tapClear | .copyActive | .swap | .lineMap | .outputMap | .memorySetup => true
  | .tapGain | .masterGain | .override | .guardSet | .guardRelease | .generatorSet | .generatorLoad | .rampSet
  | .cancelSwap | .state | .statusRead | .restart => false

/-! ### Bodies -/

/-- The entries of a list body, `n` bytes each. -/
def entriesOf (n : Nat) (body : List Byte) : List (List Byte) :=
  tab (body.length / n) fun i => (body.drop (n * i)).take n

/-- R165: a list body is a whole number of entries, and at least one. -/
def isList (n : Nat) (body : List Byte) : Bool := body.length % n == 0 && decide (n ≤ body.length)

/-- A number as a member of 0 .. n − 1, when it is one. -/
def asFin (n k : Nat) : Option (Fin n) := if h : k < n then some ⟨k, h⟩ else none

def unitOf (bit : Bool) : RampUnit := if bit then .b else .a

/-- Table 35, LINE-MAP: the source of a kind code and a number, when both are valid (R6). -/
def lineSourceOf (kind number : Nat) : Option LineSource :=
  match kind with
  | 0 => some .none
  | 1 => (asFin 128 number).map .ring
  | 2 => (asFin 16 number).map .return
  | _ => none

/-- R27: slot codes 0..127 name a slot and 255 means NONE; another code is invalid. -/
def slotOf (code : Nat) : Option (Option (Fin 128)) :=
  if code = 255 then some none else (asFin 128 code).map some

/-- R27: group codes 0..3 name a group and 255 means none; another code is invalid. -/
def groupOf (code : Nat) : Option (Option (Fin 4)) :=
  if code = 255 then some none else (asFin 4 code).map some

/-- R31: the trigger of a SWAP body. The block number is read for AT-BLOCK alone, the generator for ON-COMPARE alone. -/
def triggerOf (body : List Byte) : Option Trigger :=
  match byteAt body 0 with
  | 0 => some .next
  | 1 => some (.atBlock (BitVec.ofNat 32 (field4 body 1)))
  | 2 => (asFin 4 (byteAt body 5)).map .onCompare
  | _ => none

/-- R31: a fade code 0..6 is an exponent and 255 is CUT. -/
def fadeOf (code : Nat) : Option Fade :=
  if code = 255 then some .cut else if code ≤ 6 then some (.exponent code) else none

def intervalOf (code : Nat) : Option Interval :=
  match code with
  | 0 => some .us78
  | 1 => some .us39
  | _ => none

def overrideModeOf (code : Nat) : Option OverrideMode :=
  match code with
  | 0 => some .follow
  | 1 => some .silence
  | 2 => some .lineMonitor
  | _ => none

def genModeOf (code : Nat) : Option GenMode :=
  match code with
  | 0 => some .off
  | 1 => some .ramp
  | 2 => some .single
  | 3 => some .triangle
  | _ => none

def directionOf (code : Nat) : Option Direction :=
  match code with
  | 0 => some .up
  | 1 => some .down
  | _ => none

/-- Table 35, GENERATOR-SET: action 0 NONE, 1 NOTICE. -/
def noticeActionOf (code : Nat) : Option Bool :=
  match code with
  | 0 => some false
  | 1 => some true
  | _ => none

def guardSourceOf (code : Nat) : Option GuardSource :=
  match code with
  | 0 => some .a
  | 1 => some .b
  | _ => none

def guardModeOf (code : Nat) : Option GuardMode :=
  match code with
  | 0 => some .latch
  | 1 => some .block
  | _ => none

/-- Table 35, GUARD-SET: action 0 MUTE, 1..4 ATTENUATE s. -/
def guardActionOf (code : Nat) : Option GuardAction :=
  if code = 0 then some .mute else if code ≤ 4 then some (.attenuate code) else none

/-- Table 35, GUARD-RELEASE: source 0 A, 1 B, 2 BOTH, as the pair (A released, B released). -/
def releaseOf (code : Nat) : Option (Bool × Bool) :=
  match code with
  | 0 => some (true, false)
  | 1 => some (false, true)
  | 2 => some (true, true)
  | _ => none

/-! ### Tap entries -/

/-- R18: the base delay in 1/256 sample, clamped to 64 + 0/256 .. 131,103 + 255/256. -/
def clampDelay (d : Nat) : Nat := max 16384 (min 33562623 d)

/-- Table 36: a 16-byte entry whose channel and line are valid, and whether a clamp altered it (R18, step 4). -/
def tapEntryOf (channel : Fin 16) (line : Fin 64) (e : List Byte) : TapEntry × Bool :=
  let sent := 256 * field3 e 2 + byteAt e 5
  let d := clampDelay sent
  let code := byteAt e 9
  ({ channel := channel, line := line, delay := d / 256, fraction := BitVec.ofNat 8 (d % 256),
     gain := BitVec.ofNat 16 (field2 e 6),
     rise := unitOf ((e.getD 8 0).getLsbD 0), fall := unitOf ((e.getD 8 0).getLsbD 1),
     gen := if code = 0 then none else asFin 4 (code - 1), depth := e.getD 10 0 },
   d != sent || decide (5 ≤ code))

/-! ### Notices on the wire -/

def RecordOutcome.code : RecordOutcome → Nat
  | .done => 0 | .doneWithClamps => 1 | .late => 2 | .busy => 3 | .malformed => 4
  | .order => 5 | .truncated => 6 | .clipped => 7 | .cancelled => 8

def bit (b : Bool) (value : Nat) : Nat := if b then value else 0

def Direction.code : Direction → Nat
  | .up => 0 | .down => 1

/-- The tag a notice carries (R171): that of the record it answers, and 0 for none. -/
def Notice.tag : Notice → Half
  | .completion t _ _ _ _ => t
  | .guard t _ _ _ _ _ _ => t
  | .variation _ _ _ _ _ => 0
  | .link _ _ _ _ => 0
  | .cut _ _ _ => 0
  | .swap t _ => t
  | .status t _ => t
  | .restarted t _ => t

/-- Table 37: the kind byte. -/
def Notice.kind : Notice → Nat
  | .completion _ _ _ _ _ => 1
  | .guard _ _ _ _ _ _ _ => 2
  | .variation _ _ _ _ _ => 3
  | .link _ _ _ _ => 4
  | .cut _ _ _ => 5
  | .swap _ _ => 6
  | .status _ _ => 7
  | .restarted _ _ => 8

/-- Tables 37 and 38: the body of a notice. -/
def Notice.body : Notice → List Byte
  | .completion _ op o c b => op :: (put1 o.code ++ put2 c.written ++ put2 c.clamped ++ put2 c.rejected
      ++ put2 c.foreign ++ put2 c.first ++ put4 b.toNat)
  | .guard _ g src t b peak count => put1 g.val ++ put1 (if src = .a then 0 else 1) ++ put1 (bit t 1) ++ put4 b.toNat
      ++ put3 peak ++ put1 count
  | .variation k e b c d => put1 k.val ++ put1 (bit e 1) ++ put4 b.toNat ++ put2 c ++ put1 d.code
  | .link r n f g => put1 (bit r 1) ++ put4 n.toNat ++ put4 f.toNat ++ put4 g.toNat
  | .cut b d n => put4 b.toNat ++ put2 d ++ put2 n
  | .swap _ b => put4 b.toNat
  | .status _ body => body
  | .restarted _ b => put4 b.toNat

/-- R171: the 256 bytes of the cell that carries a notice of the node at position `p`. -/
def Notice.cell (n : Notice) (p : Fin 4) : List Byte :=
  cellOf (0x02#8 :: (put1 p.val ++ put2 n.tag.toNat ++ put1 n.kind ++ n.body))

end Sys2Proof.Machine
end

