-- ==== Sys2Proof/Machine/Arith.lean ====
section
/-! DEFINITION. Tap arithmetic (chapter 4). Every `/` of integers below is floor division: the divisors are positive. -/

namespace Sys2Proof.Machine

/-! ### Effective delay -/

/-- R60: the variation offset floor(q·c / 16), in 1/256 sample. -/
def variationOffset (depth counter : Nat) : Nat := depth * counter / 16

/-- R61: the delay in 1/256 sample, base delay plus offset, clamped. -/
def effectiveDelay (e : TapEntry) (counter : Nat) : Nat :=
  clampDelay (256 * e.delay + e.fraction.toNat + variationOffset e.depth.toNat counter)

/-- R60: the counter value a tap takes: its generator's in the snapshot, 0 if it names none. -/
def counterFor (counters : List Nat) (gen : Option (Fin 4)) : Nat :=
  match gen with
  | none => 0
  | some k => counters.getD k.val 0

/-! ### Samples and interpolation -/

/-- R48, R62: the time index of the oldest sample a tap of integer delay `d` needs in pass `b`. -/
def oldestTime (b : Block) (d : Nat) : Time := timeOf (b + 2) 0 - BitVec.ofNat 37 (d + 1)

/-- R13: the sample of time `t` that a word gives, 0 before the history floor. -/
def flooredSample (floor : Block) (t : Time) (w : Word) : Int :=
  if timeEarlier t (timeOf floor 0) then 0 else (sampleOfWord w).toInt

/-- R63: the interpolated value x0 + floor((x1 − x0)·f / 256). -/
def interpolate (x0 x1 : Int) (f : Nat) : Int := x0 + (x1 - x0) * f / 256

/-- R64 and R69: the gain at sample `j`, gb + floor((ge − gb)·(j + 1) / 32). -/
def gainAt (gb ge : Int) (j : Nat) : Int := gb + (ge - gb) * (j + 1) / 32

/-- R62: of the 40 words of a tap's read, the words kept are those from a − s0 on. -/
def keptFrom (b : Block) (d : Nat) : Nat := positionOf (oldestTime b d) % 8

/-- R62: x[oldest time + k], from the 40 words of a tap's read. -/
def tapSample (b floor : Block) (d : Nat) (words : List Word) (k : Nat) : Int :=
  flooredSample floor (oldestTime b d + BitVec.ofNat 37 k) (words.getD (keptFrom b d + k) 0)

/-- R65: the product v·g(j) of a tap at output sample `j`. -/
def tapProduct (b floor : Block) (d f : Nat) (gains : Int × Int) (words : List Word) (j : Nat) : Int :=
  interpolate (tapSample b floor d words (j + 1)) (tapSample b floor d words j) f * gainAt gains.1 gains.2 j

/-- R65: the accumulators with a tap's 32 products added into its channel. -/
def accumulate (acc : List (List Acc)) (channel : Fin 16) (product : Nat → Int) : List (List Acc) :=
  acc.set channel.val
    (tab 32 fun j => (acc.getD channel.val []).getD j 0 + BitVec.ofInt 56 (product j))

/-! ### Channel value -/

/-- R67: the scaled sum floor((A + 16,384) / 32,768). -/
def scaledSum (a : Acc) : Int := (a.toInt + 16384) / 32768

/-- R70: the channel value floor((y·m + 16,384) / 32,768). -/
def channelValue (y m : Int) : Int := (y * m + 16384) / 32768

/-- R71: a value limited to the sample range. -/
def saturate (z : Int) : Int := max (-8388608) (min 8388607 z)

/-- R72: the samples that are counted: those R71 changes. -/
def saturates (z : Int) : Bool := decide (z < -8388608) || decide (8388607 < z)

/-- R71: the magnitude of an output value. -/
def magnitude (x : Sample) : Nat := x.toInt.natAbs

/-! ### Guard action -/

/-- R73, Table 16: the value after a guard action. -/
def GuardAction.apply (a : GuardAction) (z : Sample) : Sample :=
  match a with
  | .mute => 0
  | .attenuate s => sampleOf (z.toInt / (2 ^ s : Nat))

end Sys2Proof.Machine
end

