-- ==== Sys2Proof/Machine/Flags.lean ====
section
/-! DEFINITION. How a record's entries are counted, and the outcome the counts decide (R21, R169). -/

namespace Sys2Proof.Machine

/-- How one entry of a record counts. `flagged` is an entry whose index a notice may carry as its first index. -/
structure Mark where
  written : Bool := false
  clamped : Bool := false
  rejected : Bool := false
  foreign : Bool := false
  discarded : Bool := false
  deriving DecidableEq, Repr

/-- Clamped, rejected, foreign or discarded (R169). -/
def Mark.flagged (m : Mark) : Bool := m.clamped || m.rejected || m.foreign || m.discarded

/-- The counts of the entries taken so far. -/
structure Tally where
  written : Nat := 0
  clamped : Nat := 0
  rejected : Nat := 0
  foreign : Nat := 0
  discarded : Nat := 0
  first : Option Nat := none
  deriving DecidableEq, Repr

/-- The counts with entry `i` added. A discarded entry counts as rejected (R20). -/
def Tally.add (t : Tally) (i : Nat) (m : Mark) : Tally where
  written := t.written + bit m.written 1
  clamped := t.clamped + bit m.clamped 1
  rejected := t.rejected + bit (m.rejected || m.discarded) 1
  foreign := t.foreign + bit m.foreign 1
  discarded := t.discarded + bit m.discarded 1
  first := if t.first.isNone && m.flagged then some i else t.first

/-- The entries of a record taken in the order they stand, from entry `i` on. -/
def takeEntries {σ : Type} (f : σ → List Byte → σ × Mark) : List (List Byte) → Nat → σ → Tally → σ × Tally
  | [], _, x, t => (x, t)
  | e :: rest, i, x, t => takeEntries f rest (i + 1) (f x e).1 (t.add i (f x e).2)

/-- The outcome of a record whose entries counted so (R6, R21, R24, R27, R103, R105, R117, R118). -/
def Tally.outcome (t : Tally) : RecordOutcome :=
  if 0 < t.discarded then .clipped else if t.first.isSome then .doneWithClamps else .done

/-- The counts of the completion notice. -/
def Tally.counts (t : Tally) : Counts where
  written := t.written
  clamped := t.clamped
  rejected := t.rejected
  foreign := t.foreign
  first := t.first.getD 0

end Sys2Proof.Machine
end

