-- ==== Sys2Proof/Machine/GuardOps.lean ====
section
/-! DEFINITION. The loop guard and the silence flags (chapter 7), and the inserted value of a channel (section 4.7). -/

namespace Sys2Proof.Machine

def Output.group (o : Output) (k : Nat) : GuardGroup := o.groups.getD k GuardGroup.reset

/-! ### Source A -/

/-- R110: the detector count after a pass whose group peak is `peak`. -/
def GuardGroup.nextCount (g : GuardGroup) (peak : Nat) : Nat :=
  if g.threshold ≤ peak then min 255 (g.count + 1) else 0

/-- R110 to R112: the group after the detector's update. -/
def GuardGroup.detect (g : GuardGroup) (peak : Nat) : GuardGroup :=
  if g.aEnable then
    let n := g.nextCount peak
    let trips := decide (g.limit ≤ n)
    { g with count := n, aTripped := match g.aMode with
                                     | .latch => g.aTripped || trips
                                     | .block => trips }
  else g

/-- R110, R111, R112: the verdict of the block after the update; CLEAR for a disabled source. -/
def GuardGroup.verdict (g : GuardGroup) (peak : Nat) : Bool := g.aEnable && (g.detect peak).aTripped

/-- R111, R112, R119: the GUARD notice of the update, if the trip state changed. -/
def GuardGroup.detectNotice (g : GuardGroup) (k : Fin 4) (peak : Nat) (block : Block) : List Notice :=
  if (g.detect peak).aTripped = g.aTripped then []
  else [.guard 0 k .a (g.detect peak).aTripped block peak (g.detect peak).count]

/-! ### Source B -/

/-- R114, R115: the trip state of B after a sample of the GUARD-B line. -/
def GuardGroup.sampledTrip (g : GuardGroup) (line : Bool) : Bool :=
  if g.bEnable then
    match g.bMode with
    | .block => line
    | .latch => g.bTripped || line
  else g.bTripped

/-- R114, R119: the GUARD notice of a sample, if the trip state changed. -/
def GuardGroup.sampleNotice (g : GuardGroup) (k : Fin 4) (line : Bool) (block : Block) : List Notice :=
  if g.sampledTrip line = g.bTripped then [] else [.guard 0 k .b (g.sampledTrip line) block 0 0]

/-- R114, R115, R119: the GUARD-B line is sampled at a frame arrival, the groups in order 0..3. -/
def State.sampleGuardB (s : State) (line : Bool) : State :=
  let ns := [0, 1, 2, 3].flatMap fun k : Fin 4 => (s.out.group k.val).sampleNotice k line s.noticeBlock
  (s.withOut { s.out with
    guardB := line
    groups := tab 4 fun k => { s.out.group k with bTripped := (s.out.group k).sampledTrip line } }).queueNotices ns

/-! ### The action in force and the inserted value -/

/-- R116: the guard action in force for a channel of group `k`. -/
def Output.actionFor (o : Output) (group : Option (Fin 4)) : Option GuardAction :=
  match group with
  | none => none
  | some k =>
    if o.insert.verdicts.getD k.val false then some (o.group k.val).aAction
    else if (o.group k.val).bTripped then some (o.group k.val).bAction
    else none

/-- The insert buffer's value of a channel at a sample position (R56). -/
def Output.bufferValue (o : Output) (c j : Nat) : Sample := (o.insert.values.getD c []).getD j 0

/-- R73, R74, R124: the value after the guard action and then the silence flag. -/
def Output.insertedValue (o : Output) (c j : Nat) : Sample :=
  if o.silence.getD c false then 0
  else match o.actionFor (o.copy.getD c ⟨none, none⟩).group with
    | none => o.bufferValue c j
    | some a => a.apply (o.bufferValue c j)

/-- The verdict of a group set CLEAR in a buffer (R113). -/
def OutBuffer.clearVerdict (b : OutBuffer) (k : Nat) : OutBuffer := { b with verdicts := b.verdicts.set k false }

/-- R113: the verdict of a group set CLEAR in both buffers. -/
def Output.clearVerdicts (o : Output) (k : Nat) : Output :=
  { o with filling := o.filling.clearVerdict k, insert := o.insert.clearVerdict k }

def Output.withGroup (o : Output) (k : Nat) (g : GuardGroup) : Output := { o with groups := o.groups.set k g }

/-! ### Release and setting -/

/-- R117, R118: source A of a group becomes CLEAR, with its notice if it was TRIPPED and its verdicts CLEAR in both
buffers. The notice carries the detector count before the entry (R119). -/
def State.releaseA (s : State) (tag : Half) (k : Fin 4) (count : Nat) : State :=
  let g := s.out.group k.val
  let t := s.withOut ((s.out.withGroup k.val { g with aTripped := false, count := 0 }).clearVerdicts k.val)
  if g.aTripped then t.queueNotice (.guard tag k .a false s.noticeBlock 0 count) else t

/-- R117, R118: source B of a group becomes CLEAR, with its notice if it was TRIPPED. -/
def State.releaseB (s : State) (tag : Half) (k : Fin 4) : State :=
  let g := s.out.group k.val
  let t := s.withOut (s.out.withGroup k.val { g with bTripped := false })
  if g.bTripped then t.queueNotice (.guard tag k .b false s.noticeBlock 0 0) else t

/-- R117: a threshold brought into 1..8,388,608. -/
def clampThreshold (n : Nat) : Nat := max 1 (min 8388608 n)

/-- R117: a source A entry that is valid. -/
def State.setA (s : State) (tag : Half) (k : Fin 4) (enable : Bool) (m : GuardMode) (a : GuardAction)
    (threshold limit : Nat) : State × Mark :=
  let g := s.out.group k.val
  let t := s.withOut (s.out.withGroup k.val
    { g with aEnable := enable, aMode := m, aAction := a, threshold := clampThreshold threshold,
             limit := max 1 limit, count := 0 })
  (if enable then t else t.releaseA tag k g.count,
   { written := true, clamped := clampThreshold threshold != threshold || limit == 0 })

/-- R117: a source B entry that is valid. -/
def State.setB (s : State) (tag : Half) (k : Fin 4) (enable : Bool) (m : GuardMode) (a : GuardAction) : State × Mark :=
  let g := s.out.group k.val
  let t := s.withOut (s.out.withGroup k.val { g with bEnable := enable, bMode := m, bAction := a })
  (if enable then t else t.releaseB tag k, { written := true })

/-- R117: one entry of a GUARD-SET. -/
def guardSetEntry (tag : Half) (s : State) (e : List Byte) : State × Mark :=
  match asFin 4 (byteAt e 0), guardSourceOf (byteAt e 1), guardModeOf (byteAt e 3), guardActionOf (byteAt e 4) with
  | some k, some .a, some m, some a => s.setA tag k (byteAt e 2 != 0) m a (field3 e 5) (byteAt e 8)
  | some k, some .b, some m, some a => s.setB tag k (byteAt e 2 != 0) m a
  | _, _, _, _ => (s, { rejected := true })

/-- R118: one entry of a GUARD-RELEASE; for BOTH, A is released before B. -/
def guardReleaseEntry (tag : Half) (s : State) (e : List Byte) : State × Mark :=
  match asFin 4 (byteAt e 0), releaseOf (byteAt e 1) with
  | some k, some (a, b) =>
    let s := if a then s.releaseA tag k (s.out.group k.val).count else s
    (if b then s.releaseB tag k else s, { written := true })
  | _, _ => (s, { rejected := true })

/-! ### Silence -/

/-- R122: a FRAME change takes hold at the first frame that arrives after its record. -/
def Output.takeSilenceNext (o : Output) : Output :=
  { o with silence := tab 16 (fun c => (o.silenceNext.getD c none).getD (o.silence.getD c false))
           silenceNext := List.replicate 16 none }

/-- R122: a pending BLOCK change takes hold at a block boundary. -/
def Output.takeSilencePending (o : Output) : Output :=
  { o with silence := tab 16 (fun c => (o.silencePending.getD c none).getD (o.silence.getD c false))
           silencePending := List.replicate 16 none }

/-- R122: the silence change an OVERRIDE record makes for a channel, by its timing. -/
def Output.changeSilence (o : Output) (c : Nat) (target block : Bool) : Output :=
  if block then { o with silencePending := o.silencePending.set c (some target) }
  else { o with silenceNext := o.silenceNext.set c (some target), silencePending := o.silencePending.set c none }

end Sys2Proof.Machine
end

