-- ==== Sys2Proof/Machine/MemoryOps.lean ====
section
/-! DEFINITION. The delay memory controller (chapter 8): what it serves next, its timer, and its changes of state. -/

namespace Sys2Proof.Machine

/-! ### Service times, in memory clock periods (Table 28) -/

def prechargePeriods : Nat := 3
def prechargeAllPeriods : Nat := 3
def activatePeriods : Nat := 3
def burstPeriods : Nat := 8
def refreshPeriods : Nat := 10
def modeSetPeriods : Nat := 2
def settlePeriods : Nat := 4
def selfRefreshEntryPeriods : Nat := 2
def selfRefreshExitPeriods : Nat := 26

def BurstRequest.bank (q : BurstRequest) : Nat := bankOf q.position.val
def BurstRequest.row (q : BurstRequest) : Nat := rowOf q.line.val q.position.val

/-- The open row of a bank, or none when it is CLOSED (R133). -/
def MemController.openRow (m : MemController) (bank : Nat) : Option Nat :=
  ((m.bankTable.getD bank none).map Fin.val)

/-- R134, Table 28: the periods the access of a burst takes. -/
def MemController.accessPeriods (m : MemController) (q : BurstRequest) : Nat :=
  match q.kind with
  | .read => burstPeriods + m.latencyInForce
  | .write _ => burstPeriods

/-- R134: the service time of a burst, by the bank table entry of its bank. -/
def MemController.burstTime (m : MemController) (q : BurstRequest) : Nat :=
  match m.openRow q.bank with
  | none => activatePeriods + m.accessPeriods q
  | some r =>
    if r = q.row then m.accessPeriods q
    else prechargePeriods + activatePeriods + m.accessPeriods q

/-- A service begins. -/
def MemController.serve (m : MemController) (x : Service) (periods : Nat) : MemController :=
  { m with service := x, periods := periods }

/-- One refresh is served: a precharge-all and a refresh command (R137). -/
def MemController.serveRefresh (m : MemController) : MemController :=
  m.serve .refresh (prechargeAllPeriods + refreshPeriods)

/-- What a free controller serves in READY, DRAINING and ENTERING: the oldest burst, unless a refresh goes first
(R134, R137, R138). -/
def MemController.serveQueue (m : MemController) : MemController :=
  match m.queue with
  | [] => if 0 < m.owed then m.serveRefresh else m
  | q :: _ => if 8 ≤ m.owed then m.serveRefresh else m.serve .burst (m.burstTime q)

/-- The controller takes its next service when it is free; `passes` is the count of passes begun and not ended (R139).
DRAINING turns to SETTING when that count is 0, and SETTING serves the refreshes owed then, a refresh in service among
them, before its mode set; a refresh-due event taken in SETTING waits for READY (R128, R136, log 18). -/
def MemController.advance (m : MemController) (passes : Nat) : MemController :=
  let m := if m.state = .draining ∧ passes = 0 then { m with state := .setting, settingRefreshes := m.owed } else m
  if m.service ≠ .none then m else
  match m.state with
  | .ready | .draining => m.serveQueue
  | .entering =>
    if passes = 0 ∧ m.queue = [] ∧ m.owed = 0 then
      m.serve .selfRefreshEntry (prechargeAllPeriods + selfRefreshEntryPeriods)
    else m.serveQueue
  | .setting =>
    if 0 < m.settingRefreshes then m.serveRefresh
    else m.serve .modeSet (prechargeAllPeriods + modeSetPeriods + settlePeriods)
  | .uninit | .initializing | .held | .leaving => m

/-- All four banks CLOSED (Table 27, precharge-all). -/
def allClosed : List (Option (Fin 4096)) := List.replicate 4 none

/-- The memory arrives at READY, or goes on at once to ENTERING with the self-refresh request set (R129, R130). The
refresh timer is started with the interval stored, and the mode set has written the latency stored (R126, R136). The latency
is read here, at the end of the sequence, also for a LEAVING in whose settle a MEMORY-SETUP stored another (log 32). An expiry
still held at a count of 8 when SETTING ends is dropped by the timer's restart, which is the model's own choice (log 38). -/
def MemController.arriveReady (m : MemController) : MemController :=
  { m with state := if m.selfRefresh then .entering else .ready, timer := .running m.interval,
           latencyInForce := m.latency, bankTable := allClosed, settingRefreshes := 0, service := .none, periods := 0 }

/-- R127: initialization begins. -/
def MemController.initialize (m : MemController) : MemController :=
  { m with state := .initializing }.serve .initialization
    (prechargeAllPeriods + refreshPeriods * m.refreshCount + modeSetPeriods + settlePeriods)

/-- R130, Table 29: what a QUIESCE does in each memory state. -/
def MemController.quiesce (m : MemController) : MemController :=
  { m with selfRefresh := true, state := if m.state = .ready then .entering else m.state }

/-- R130, R131, Table 29: what a WAKE or a RESTART does in each memory state. -/
def MemController.wake (m : MemController) : MemController :=
  let m := { m with selfRefresh := false }
  match m.state with
  | .entering =>
    if m.service = .selfRefreshEntry then
      { m with state := .ready, bankTable := allClosed, service := .none, periods := 0 }
    else { m with state := .ready }
  | .held =>
    { m with state := .leaving }.serve .leaving
      (selfRefreshExitPeriods + prechargeAllPeriods + modeSetPeriods + settlePeriods)
  | .uninit | .initializing | .ready | .draining | .setting | .leaving => m

/-- R136: the refresh timer runs out: a refresh-due event, or a held one when the count is 8. It restarts with the interval
stored, in ENTERING too (log 33). -/
def MemController.refreshDue (m : MemController) : MemController :=
  match m.timer with
  | .running _ =>
    if m.owed < 8 then { m with owed := m.owed + 1, timer := .running m.interval } else { m with timer := .expired }
  | .stopped | .expired => m

/-- R136, R137: the refresh in service ends, and a held expiry is taken; in SETTING it is one of those that R128 serves. -/
def MemController.refreshEnd (m : MemController) : MemController :=
  let m := { m with owed := m.owed - 1, settingRefreshes := m.settingRefreshes - 1, bankTable := allClosed,
                    service := .none, periods := 0 }
  match m.timer with
  | .expired => { m with owed := m.owed + 1, timer := .running m.interval }
  | .stopped | .running _ => m

/-- R132: the controller accepts a request. -/
def MemController.accepts (m : MemController) : Bool :=
  (m.state == .ready || m.state == .draining || m.state == .entering) && decide (m.queue.length < 16)

/-- R133: the bank table after a burst's activate. -/
def MemController.openFor (m : MemController) (q : BurstRequest) : MemController :=
  { m with bankTable := m.bankTable.set q.bank (asFin 4096 q.row) }

/-- R139: the passes begun and not yet ended. -/
def State.passCount (s : State) : Nat := (if s.tap.pass.isSome then 1 else 0) + s.tap.ending.length

/-- The controller goes on, with the passes as they stand. -/
def State.advanceMem (s : State) : State := s.withMem (s.mem.advance s.passCount)

/-- R127, R128: the MEMORY-SETUP that started the sequence completes. -/
def State.completeSetup (s : State) : State :=
  match s.records.setup, s.records.table with
  | some clamped, r :: _ =>
    (s.withRecords { s.records with setup := none }).completeTable r
      (if clamped then .doneWithClamps else .done) { written := 1, clamped := bit clamped 1 }
  | _, _ => s

end Sys2Proof.Machine
end

