-- ==== Sys2Proof/Machine/RampOps.lean ====
section
/-! DEFINITION. Gain ramps (chapter 5): the ramp record, its step, its retarget, and the ramps of a swap. -/

namespace Sys2Proof.Machine

/-- R80: the defined value at step count `q`, g0 + floor((g1 − g0)·q / L). -/
def Ramp.value (r : Ramp) (q : Nat) : Int := r.g0 + (r.g1 - r.g0) * q / r.len

/-- R80: the current gain, as the record stands between passes. -/
def Ramp.current (r : Ramp) : Int := r.value r.p

/-- R80: the ramp is idle when p = L. -/
def Ramp.idle (r : Ramp) : Bool := r.p == r.len

/-- R81: the block-start and block-end gains of a step. -/
def Ramp.gains (r : Ramp) : Int × Int := (r.value r.p, r.value (min (r.p + 1) r.len))

/-- R81: the record after a step. -/
def Ramp.step (r : Ramp) : Ramp := { r with p := min (r.p + 1) r.len }

/-- R82: the record after a retarget to `g`, with the lengths of its rise and fall units. -/
def Ramp.retarget (r : Ramp) (g : Int) (riseLen fallLen : Nat) : Ramp :=
  let c := r.current
  if c < g then ⟨c, g, riseLen, 0⟩
  else if g < c then ⟨c, g, fallLen, 0⟩
  else ⟨c, c, r.len, r.len⟩

/-- R78: the length a unit gives. -/
def Ramps.unitLen (r : Ramps) (u : RampUnit) : Nat :=
  match u with
  | .a => 2 ^ r.unitA
  | .b => 2 ^ r.unitB

/-- R84: a master ramp retargeted: its rise unit is A and its fall unit is B. -/
def Ramps.retargetMaster (r : Ramps) (c : Nat) (g : Int) : Ramps :=
  let m := (r.masters.getD c Ramp.idleAtZero).retarget g (r.unitLen .a) (r.unitLen .b)
  { r with masters := r.masters.set c m }

/-- The 16 master ramps retargeted, each to the gain `g` gives its channel (R88, R91). -/
def Ramps.retargetMasters (r : Ramps) (g : Nat → Int) : Ramps :=
  { r with masters := tab 16 fun c => (r.masters.getD c Ramp.idleAtZero).retarget (g c) (r.unitLen .a) (r.unitLen .b) }

/-- R89: all 16 master ramps are idle at 0. -/
def Ramps.mastersSilent (r : Ramps) : Bool := r.masters.all fun m => m.idle && m.current == 0

/-- The gain of an entry as an integer. -/
def TapEntry.gainInt (e : TapEntry) : Int := e.gain.toInt

/-- R83: the ramp of an ACTIVE entry retargeted to a gain, under the units the entry selects. -/
def Ramps.retargetTap (r : Ramps) (k : BankNo) (i : Nat) (e : TapEntry) (g : Int) : Ramps :=
  r.withTaps k ((r.taps k).modify i
    (Option.map fun m => m.retarget g (r.unitLen e.rise) (r.unitLen e.fall)))

/-- R85: the ramp of an entry of the incoming bank. -/
def incomingRamp (fade : Fade) (e : TapEntry) : Ramp :=
  match fade with
  | .exponent x => ⟨0, e.gainInt, 2 ^ x, 0⟩
  | .cut => ⟨e.gainInt, e.gainInt, 1, 1⟩

/-- R85: the ramp of an entry of the outgoing bank under a fade exponent, from its current gain to 0. -/
def outgoingRamp (x : Nat) (m : Ramp) : Ramp := ⟨m.current, 0, 2 ^ x, 0⟩

/-- R85: the ramps of both banks when a swap takes effect, `k` being the incoming bank. -/
def Ramps.forSwap (r : Ramps) (k : BankNo) (incoming : Bank) (fade : Fade) : Ramps :=
  (r.withTaps k (incoming.map (Option.map (incomingRamp fade)))).withTaps (otherBank k)
    (match fade with
     | .exponent x => (r.taps (otherBank k)).map (Option.map (outgoingRamp x))
     | .cut => noRamps)

/-- R81: the pairs of gains a snapshot takes from a bank's ramps. -/
def rampGains (x : List (Option Ramp)) : List (Option (Int × Int)) := x.map (Option.map Ramp.gains)

/-- R81: every ramp of a bank stepped. -/
def stepRamps (x : List (Option Ramp)) : List (Option Ramp) := x.map (Option.map Ramp.step)

/-- R86: every ramp record of a bank is idle. -/
def allIdle (x : List (Option Ramp)) : Bool :=
  x.all fun m => match m with
    | none => true
    | some r => r.idle

end Sys2Proof.Machine
end

