-- ==== Sys2Proof/Machine/PassOps.lean ====
section
/-! DEFINITION. The tap pass (chapter 3): its start, its bursts, its contributions, its FINISHING, its cut and its
abandonment. -/

namespace Sys2Proof.Machine

/-! ### The bursts a pass hands over -/

/-- Table 5: the value written on a line at sample `j`. -/
def WriteStage.value (w : WriteStage) (line j : Nat) : Sample :=
  match w.map.getD line .none with
  | .none => 0
  | .ring n => (w.input.getD j []).getD n.val 0
  | .return c => (w.inserted.getD j []).getD c.val 0

/-- R44: the next write burst of a write stage: four for each line, in line order. -/
def WriteStage.burst (w : WriteStage) (serial : Nat) : BurstRequest where
  kind := .write (tab 8 fun i => w.value (w.handed / 4) (8 * (w.handed % 4) + i))
  line := ⟨w.handed / 4 % 64, Nat.mod_lt _ (by decide)⟩
  position := linePosition (lineBlockPosition w.number + 8 * (w.handed % 4))
  number := w.number
  serial := serial
  part := .writeStage

/-- The first member of a list that may hand a burst over, with the list after it did. -/
def handFirst {α : Type} (may : α → Bool) (upd : α → α) : List α → Option (α × List α)
  | [] => none
  | a :: rest => if may a then some (a, upd a :: rest) else (handFirst may upd rest).map fun x => (x.1, a :: x.2)

/-- R45: an ending pass has write bursts not yet handed over. -/
def EndingPass.writesLeft (e : EndingPass) : Bool :=
  match e.write with
  | none => false
  | some w => decide (w.handed < 256)

def WriteStage.hand (w : WriteStage) : WriteStage := { w with handed := w.handed + 1 }

/-- R44, R45: the next write burst of the oldest ending pass that has one, with the engine after it. -/
def TapEngine.endingBurst (t : TapEngine) : Option (BurstRequest × TapEngine) :=
  match handFirst EndingPass.writesLeft (fun e => { e with write := e.write.map WriteStage.hand }) t.ending with
  | some (e, after) => e.write.map fun w => (w.burst e.serial, { t with ending := after })
  | none => none

/-- R47: the next read burst of a LINE-MONITOR channel. -/
def MonitorRead.burst (m : MonitorRead) (p : Pass) : BurstRequest where
  kind := .read
  line := m.line
  position := linePosition (lineBlockPosition p.number + 8 * m.handed)
  number := p.number
  serial := p.serial
  part := .monitor m.channel

/-- R48: the next read burst of a tap, from s0 = floor(a / 8)·8 on, modulo 131,072. -/
def TapRead.burst (r : TapRead) (p : Pass) : BurstRequest where
  kind := .read
  line := r.line
  position := linePosition (positionOf (oldestTime p.number r.delay) / 8 * 8 + 8 * r.handed)
  number := p.number
  serial := p.serial
  part := .tap r.bank r.index

/-- The first ACTIVE entry of a part of a bank whose first index is `i` (R46). -/
def firstActive : Bank → Nat → Option (Nat × TapEntry)
  | [], _ => none
  | none :: rest, i => firstActive rest (i + 1)
  | some e :: _, i => some (i, e)

/-- R46: the next entry from the cursor: the ACTIVE bank whole, and then, during a fade, the OUTGOING bank. -/
def nextTap (store : Store) (n : Snapshot) (c : Cursor) : Option (BankNo × Nat × TapEntry) :=
  match firstActive ((store.bank c.bank).drop c.index) c.index with
  | some (i, e) => some (c.bank, i, e)
  | none =>
    if c.bank = n.active ∧ n.fade then
      (firstActive (store.bank (otherBank n.active)) 0).map fun x => (otherBank n.active, x.1, x.2)
    else none

/-- R46: the cursor after an entry was taken: at index 1,024 after the last entry of the last bank (log 31). -/
def cursorAfter (n : Snapshot) (k : BankNo) (i : Nat) : Cursor :=
  if i + 1 = 1024 ∧ k = n.active ∧ n.fade then ⟨otherBank n.active, 0⟩ else ⟨k, i + 1⟩

/-- R48, R60, R61: the read of a tap, its effective delay and fraction formed from the snapshot's counter. -/
def tapReadOf (n : Snapshot) (k : BankNo) (i : Nat) (e : TapEntry) : TapRead :=
  let delay := effectiveDelay e (counterFor n.counters e.gen)
  { bank := k, index := i, channel := e.channel, line := e.line, delay := delay / 256, fraction := delay % 256,
    handed := 0, words := [] }

/-- R46 to R48: the next read burst of the tap stage: LINE-MONITOR channels, then the tap under way, then the next. -/
def TapEngine.tapBurst (t : TapEngine) (p : Pass) (store : Store) : Option (BurstRequest × TapEngine) :=
  match handFirst (fun m : MonitorRead => decide (m.handed < 4)) (fun m => { m with handed := m.handed + 1 }) p.monitors with
  | some (m, rest) => some (m.burst p, { t with pass := some { p with monitors := rest } })
  | none =>
    match handFirst (fun r : TapRead => decide (r.handed < 5)) (fun r => { r with handed := r.handed + 1 }) p.reads with
    | some (r, rest) => some (r.burst p, { t with pass := some { p with reads := rest } })
    | none =>
      match nextTap store p.snapshot t.cursor with
      | some (k, i, e) =>
        let r := tapReadOf p.snapshot k i e
        some (r.burst p, { t with pass := some { p with reads := p.reads ++ [{ r with handed := 1 }] }
                                  cursor := cursorAfter p.snapshot k i })
      | none => none

/-- The tap engine's next burst, if it has one ready (R44, R45, R46). -/
def TapEngine.nextBurst (t : TapEngine) (store : Store) : Option (BurstRequest × TapEngine) :=
  match t.endingBurst with
  | some x => some x
  | none =>
    match t.pass with
    | none => none
    | some p =>
      match t.state with
      | .writing =>
        if p.write.handed < 256 then
          some (p.write.burst p.serial, { t with pass := some { p with write := p.write.hand } })
        else none
      | .tapping => t.tapBurst p store
      | .idle | .finishing => none

/-! ### What comes back -/

/-- R50: the tap stage is complete. -/
def Pass.tapStageDone (p : Pass) : Bool :=
  p.done == p.snapshot.due && p.monitors.all fun m => decide (32 ≤ m.words.length)

/-- R50: a pass whose tap stage is complete enters FINISHING. -/
def TapEngine.endTapStage (t : TapEngine) : TapEngine :=
  match t.state, t.pass with
  | .tapping, some p => if p.tapStageDone then { t with state := .finishing } else t
  | _, _ => t

/-- R44, R46, R49: the last write burst is served, and the pass enters TAPPING with its accumulators cleared. -/
def TapEngine.enterTapping (t : TapEngine) (p : Pass) : TapEngine :=
  { t with state := .tapping, acc := clearedAccumulators, cursor := ⟨p.snapshot.active, 0⟩ }

/-- R44: a write burst of the current pass in WRITING is served. -/
def TapEngine.writeServed (t : TapEngine) (serial : Nat) : TapEngine :=
  match t.state, t.pass with
  | .writing, some p =>
    if p.serial = serial then
      let p := { p with served := p.served + 1 }
      let t := { t with pass := some p }
      if p.served = 256 then (t.enterTapping p).endTapStage else t
    else t
  | _, _ => t

def Snapshot.gains (n : Snapshot) (k : BankNo) (i : Nat) : Int × Int :=
  ((if k = 0 then n.gains0 else n.gains1).getD i none).getD (0, 0)

/-- R49: the words of a burst reach their tap's read; the tap contributes when its fifth burst has returned. -/
def TapEngine.tapReturned (t : TapEngine) (p : Pass) (k : BankNo) (i : Nat) (words : List Word) : TapEngine :=
  match handFirst (fun r : TapRead => r.bank == k && r.index == i) (fun r => { r with words := r.words ++ words }) p.reads with
  | none => t
  | some (r, rest) =>
    let all := r.words ++ words
    if 40 ≤ all.length then
      { t with acc := accumulate t.acc r.channel
                 (tapProduct p.number p.snapshot.floor r.delay r.fraction (p.snapshot.gains k i) all)
               pass := some { p with reads := p.reads.eraseP (fun x => x.bank == k && x.index == i), done := p.done + 1 } }
    else { t with pass := some { p with reads := rest } }

/-- R47: the words of a burst reach their LINE-MONITOR channel. -/
def TapEngine.monitorReturned (t : TapEngine) (p : Pass) (c : Fin 16) (words : List Word) : TapEngine :=
  { t with pass := some { p with monitors := p.monitors.map fun m =>
      if m.channel = c then { m with words := m.words ++ words } else m } }

/-- R47, R49, R51, R57: the words of a read are handed back; those of a pass that is not tapping are discarded. -/
def TapEngine.readReturned (t : TapEngine) (q : BurstRequest) (words : List Word) : TapEngine :=
  match t.state, t.pass with
  | .tapping, some p =>
    if p.serial = q.serial then
      (match q.part with
       | .writeStage => t
       | .monitor c => t.monitorReturned p c words
       | .tap k i => t.tapReturned p k i words).endTapStage
    else t
  | _, _ => t

/-- R54, R139: an ending pass gives its end once every burst it handed over has been served. -/
def State.reapEnding (s : State) : State :=
  s.withTap { s.tap with ending := s.tap.ending.filter fun e =>
    e.writesLeft || s.mem.queue.any fun q => q.serial == e.serial }

/-! ### FINISHING -/

/-- R68: sample `j` of a LINE-MONITOR channel, 0 if not all its words have returned. -/
def Pass.monitorSample (p : Pass) (c j : Nat) : Int :=
  match p.monitors.find? fun m => m.channel.val == c with
  | some m => if 32 ≤ m.words.length then flooredSample p.snapshot.floor (timeOf p.number j) (m.words.getD j 0) else 0
  | none => 0

/-- R67, R68: the scaled sum y of a channel and sample. -/
def Pass.sum (p : Pass) (acc : List (List Acc)) (c j : Nat) : Int :=
  match p.snapshot.monitors.getD c none with
  | some _ => p.monitorSample c j
  | none => scaledSum ((acc.getD c []).getD j 0)

/-- R69, R70: the channel value z before saturation. -/
def Pass.value (p : Pass) (acc : List (List Acc)) (c j : Nat) : Int :=
  let m := p.snapshot.masters.getD c (0, 0)
  channelValue (p.sum acc c j) (gainAt m.1 m.2 j)

/-- R53, R71: the 16 × 32 output values. -/
def Pass.values (p : Pass) (acc : List (List Acc)) : List (List Sample) :=
  tab 16 fun c => tab 32 fun j => sampleOf (saturate (p.value acc c j))

/-- R72: how many of a channel's samples R71 changed, of those formed among the first `formed` of the 512 (R76). -/
def Pass.saturated (p : Pass) (acc : List (List Acc)) (formed c : Nat) : Nat :=
  ((List.range 32).filter fun j => decide (32 * c + j < formed) && saturates (p.value acc c j)).length

/-- R72: the saturation counters after FINISHING formed the first `formed` values. -/
def Pass.countSaturation (p : Pass) (acc : List (List Acc)) (formed : Nat) (old : List Half) : List Half :=
  tab 16 fun c => countUp (old.getD c 0) (p.saturated acc formed c)

/-- R110: the group peak, over the member channels' values. -/
def groupPeak (groups : List (Option (Fin 4))) (values : List (List Sample)) (k : Fin 4) : Nat :=
  (List.range 16).foldl (fun m c =>
    if groups.getD c none = some k then (values.getD c []).foldl (fun m x => max m (magnitude x)) m else m) 0

/-- R53, R71, R72, R110 to R113, R119: FINISHING writes the filling buffer, counts saturation and updates the
detectors. -/
def State.formOutput (s : State) (p : Pass) : State :=
  let values := p.values s.tap.acc
  let peak := groupPeak p.snapshot.groups values
  let ns := [0, 1, 2, 3].flatMap fun k : Fin 4 => (s.out.group k.val).detectNotice k (peak k) (p.number + 2)
  (s.withOut { s.out with
    filling := ⟨values, [0, 1, 2, 3].map fun k : Fin 4 => (s.out.group k.val).verdict (peak k)⟩
    groups := [0, 1, 2, 3].map (fun k : Fin 4 => (s.out.group k.val).detect (peak k))
    saturation := p.countSaturation s.tap.acc 512 s.out.saturation }).queueNotices ns

/-- R37, R54: the report of a pass's end to the table store, taken only for the fade its snapshot played. -/
def State.reportFade (s : State) (p : Pass) (swapped : Bool) : State :=
  if s.store.fade ∧ p.snapshot.fade ∧ p.snapshot.outgoingIdle ∧ swapped = false then
    s.withStore { s.store with endReady := true }
  else s

/-- R49, R54: FINISHING of the current pass completes; `swapped` says a swap took effect since its snapshot. The pass
state becomes IDLE, and the pass is an ending pass until its bursts are served. The pass number stays (log 30). -/
def State.finishPass (s : State) (p : Pass) (write : Option WriteStage) (swapped : Bool) : State :=
  let s := (s.formOutput p).reportFade p swapped
  s.withTap { s.tap with state := .idle, pass := none, acc := clearedAccumulators,
                         ending := s.tap.ending ++ [⟨p.number, p.serial, write⟩] }

/-- R50, R52, R54: an uncut pass ends, which clears the current cut run. -/
def State.finishUncut (s : State) (p : Pass) (swapped : Bool) : State :=
  let s := s.finishPass p none swapped
  s.withTap { s.tap with cutRun := 0 }

/-- R51, R52: the cut count and the current cut run are incremented, and a run's first cut queues a CUT notice. -/
def State.countCut (s : State) (p : Pass) : State :=
  let first := s.tap.cutRun = 0
  let t := s.withTap { s.tap with cutCount := countUp s.tap.cutCount 1, cutRun := countUp s.tap.cutRun 1 }
  if first then t.queueNotice (.cut (p.number + 2) p.done p.snapshot.due) else t

/-- R45, R51, R53: what a block boundary does to the current pass: a pass in WRITING or TAPPING is cut and runs its
FINISHING at once; one in FINISHING completes it. A pass cut in WRITING forms zeros and goes on handing over. -/
def State.closePass (s : State) (swapped : Bool) : State :=
  match s.tap.pass with
  | none => s
  | some p =>
    match s.tap.state with
    | .finishing => s.finishUncut p swapped
    | .writing =>
      ((s.countCut p).withTap { (s.countCut p).tap with acc := clearedAccumulators }).finishPass p (some p.write) swapped
    | .tapping => (s.countCut p).finishPass p none swapped
    | .idle => s

/-! ### Abandonment -/

/-- R76: the increments already made by an abandoned FINISHING stand, as far as it had come (log 15). -/
def State.partialSaturation (s : State) : State :=
  match s.tap.pass, s.tap.state with
  | some p, .finishing =>
    s.withOut { s.out with
      saturation := p.countSaturation s.tap.acc (Config.finishingProgress p.serial) s.out.saturation }
  | _, _ => s

/-- R57, R58: the pass in flight is abandoned, and both output buffers are set to zeros. The pass number and the tap cursor
stay (log 30, log 31). -/
def State.abandonPass (s : State) : State :=
  let s := s.partialSaturation
  let stopped := s.tap.ending.map fun e => { e with write := none }
  let tap := match s.tap.pass with
    | none => { s.tap with ending := stopped }
    | some p => { s.tap with state := .idle, pass := none, acc := clearedAccumulators, cutRun := 0,
                             ending := stopped ++ [⟨p.number, p.serial, none⟩] }
  ((s.withTap tap).withOut { s.out with filling := OutBuffer.zeros, insert := OutBuffer.zeros }).reapEnding

/-! ### The start of a pass -/

/-- R43: the counters of the snapshot, 0 for a generator whose mode is OFF. -/
def snapshotCounters (gens : List Generator) : List Nat := gens.map fun g => if g.mode = .off then 0 else g.counter

/-- R43: the LINE-MONITOR lines of the snapshot. -/
def snapshotMonitors (channels : List Channel) : List (Option (Fin 64)) :=
  tab 16 fun c =>
    let x := channels.getD c Channel.reset
    if x.override = .lineMonitor then some x.monitorLine else none

/-- R43: the override mode of each channel in the snapshot. -/
def snapshotOverrides (channels : List Channel) : List OverrideMode :=
  tab 16 fun c => (channels.getD c Channel.reset).override

/-- The count of ACTIVE entries of a bank. -/
def activeCount (b : Bank) : Nat := (b.filter Option.isSome).length

/-- R43: whether a pass plays a bank: the ACTIVE bank, and the OUTGOING bank during a fade. -/
def Store.plays (t : Store) (k : BankNo) : Bool := k == t.active || t.fade

/-- R43, R81: the snapshot. The ramps are read before they step, except for the report of R86. -/
def State.snapshot (s : State) : Snapshot where
  counters := snapshotCounters s.gens
  gains0 := if s.store.plays 0 then rampGains s.ramps.taps0 else []
  gains1 := if s.store.plays 1 then rampGains s.ramps.taps1 else []
  masters := s.ramps.masters.map Ramp.gains
  overrides := snapshotOverrides s.store.channels
  monitors := snapshotMonitors s.store.channels
  active := s.store.active
  fade := s.store.fade
  due := activeCount (s.store.bank s.store.active)
    + (if s.store.fade then activeCount (s.store.bank s.store.idleBank) else 0)
  floor := s.lines.floor
  groups := s.out.copy.map ChannelCopy.group
  outgoingIdle := s.store.fade && allIdle (stepRamps (s.ramps.taps s.store.idleBank))

/-- R81: every ramp of the banks the pass plays steps, and every master ramp. -/
def State.stepAllRamps (s : State) : State :=
  s.withRamps { s.ramps with
    taps0 := if s.store.plays 0 then stepRamps s.ramps.taps0 else s.ramps.taps0
    taps1 := if s.store.plays 1 then stepRamps s.ramps.taps1 else s.ramps.taps1
    masters := s.ramps.masters.map Ramp.step }

/-- R47: the monitor reads of a snapshot, in ascending order of channel. -/
def monitorReads (monitors : List (Option (Fin 64))) : List MonitorRead :=
  [0, 1, 2, 3, 4, 5, 6, 7, 8, 9, 10, 11, 12, 13, 14, 15].filterMap fun c : Fin 16 =>
    (monitors.getD c.val none).map fun l => ⟨c, l, 0, []⟩

/-- R7, R41, R43, R44: pass `b` as its start leaves it, in WRITING. -/
def State.newPass (s : State) (b : Block) : Pass where
  number := b
  serial := s.passSerial
  snapshot := s.snapshot
  write := ⟨b, s.lines.map, s.link.complete, s.out.recorded, 0⟩
  served := 0
  monitors := monitorReads s.snapshot.monitors
  reads := []
  done := 0

/-- R89: the check of the master ramps while MUTING; the first success begins the drain. -/
def State.muteCheck (s : State) : State :=
  if s.records.node = .muting ∧ s.records.drain = none ∧ s.ramps.mastersSilent then
    s.withRecords { s.records with drain := some 0 }
  else s

/-- R43, R81, R89: pass `b` takes its start. -/
def State.beginPass (s : State) (b : Block) : State :=
  let p := s.newPass b
  let t := { s.withTap { s.tap with state := .writing, number := b, pass := some p } with passSerial := s.passSerial + 1 }
  t.stepAllRamps.muteCheck

/-- R42: the conditions of a pass beginning at a block boundary. -/
def State.passMayBegin (s : State) : Bool :=
  s.link.state == .locked && s.records.node != .quiescent && s.mem.state == .ready

/-- R12, R42: at a boundary that begins block `n` and no pass, the cut run is cleared and the floor set. -/
def State.beginNoPass (s : State) (n : Block) : State :=
  (s.withTap { s.tap with cutRun := 0 }).withLines { s.lines with floor := n }

end Sys2Proof.Machine
end

