-- ==== Sys2Proof/Machine/RecordOps.lean ====
section
/-! DEFINITION. The record engine's intake (sections 10.1 to 10.3): cells, fragments, the assembly, the queues. -/

namespace Sys2Proof.Machine

def State.withAssembly (s : State) (a : Option Assembly) : State := s.withRecords { s.records with assembly := a }

/-- R160: the assembly in progress, if any, is abandoned with a TRUNCATED notice. -/
def State.abandonAssembly (s : State) : State :=
  match s.records.assembly with
  | none => s
  | some a =>
    (s.withAssembly none).queueNotice (.completion a.tag a.op.code .truncated { first := a.next } s.noticeBlock)

/-- R159, R160, R162: a record refused with MALFORMED at assembly. -/
def State.refuseRecord (s : State) (tag : Half) (code : Byte) (first : Nat) : State :=
  s.queueNotice (.completion tag code .malformed { first := first } s.noticeBlock)

/-- R163, R168: a complete record joins its class queue or is refused with BUSY; a RESTART joins neither (log 4). -/
def State.enqueue (s : State) (r : Record) : State :=
  if r.op = .restart then s.withRecords { s.records with restarts := s.records.restarts ++ [r] }
  else if r.op.isTable then
    if s.records.table.length < 2 then s.withRecords { s.records with table := s.records.table ++ [r] }
    else s.complete r.tag r.op r.notify .busy {}
  else
    if s.records.live.length < 2 then s.withRecords { s.records with live := s.records.live ++ [r] }
    else s.complete r.tag r.op r.notify .busy {}

/-- R162: the test after a fragment of index `index` was accepted into the assembly `a`. -/
def State.testAssembly (s : State) (a : Assembly) (index : Nat) (last : Bool) : State :=
  let n := a.bytes.length
  if a.total < n ∨ (n < a.total ∧ last) then (s.withAssembly none).refuseRecord a.tag a.op.code index
  else if n = a.total then (s.withAssembly none).enqueue ⟨a.tag, a.op, a.notify, a.bytes.drop 4⟩
  else s.withAssembly (some a)

/-- R160: fragment 0 with usable content, the assembly being empty. -/
def State.startAssembly (s : State) (g : Fragment) : State :=
  let content := g.payload.take g.count
  let code := content.getD 0 0
  let total := field2 content 2
  match opOf code with
  | none => s.refuseRecord g.tag code 0
  | some op =>
    if g.count < 4 ∨ total < 4 ∨ 16400 < total then s.refuseRecord g.tag code 0
    else s.testAssembly ⟨g.tag, op, (content.getD 1 0).getLsbD 0, total, content, 1⟩ 0 g.last

/-- R161: a continuation. -/
def State.continueAssembly (s : State) (g : Fragment) : State :=
  match s.records.assembly with
  | none => s
  | some a =>
    if g.tag = a.tag ∧ g.index = a.next then
      s.testAssembly { a with bytes := a.bytes ++ g.payload.take g.count, next := a.next + 1 } g.index g.last
    else s.abandonAssembly

/-- R159 to R161: a fragment is taken. -/
def State.takeFragment (s : State) (g : Fragment) : State :=
  if g.count = 0 ∨ 246 < g.count then
    if g.index = 0 then s.abandonAssembly.refuseRecord g.tag (g.payload.getD 0 0) 0
    else s.abandonAssembly
  else if g.index = 0 then s.abandonAssembly.startAssembly g
  else s.continueAssembly g

/-- R158: an undamaged cell is taken by its kind byte; only a COMMAND cell naming this node is. -/
def State.takeCell (s : State) (b : List Byte) : State :=
  if b.getD 0 0 = 0x01 ∧ names (b.getD 1 0) s.position then s.takeFragment (fragmentOf b) else s

end Sys2Proof.Machine
end

