-- ==== Sys2Proof/Machine/GeneratorOps.lean ====
section
/-! DEFINITION. Variation generators (chapter 6): the step, the compare test, and the changes of a record's entry. -/

namespace Sys2Proof.Machine

/-- R95 to R98: the state a step leaves. -/
def Generator.step (g : Generator) : Generator :=
  match g.mode with
  | .off => g
  | .ramp =>
    if g.counter < g.period then { g with counter := g.counter + 1 }
    else { g with counter := 0, period := g.pendingPeriod }
  | .single =>
    if g.counter < g.period then { g with counter := g.counter + 1 }
    else { g with counter := 0, period := g.pendingPeriod, mode := .off }
  | .triangle =>
    match g.dir with
    | .up =>
      { g with counter := g.counter + 1, dir := if g.counter + 1 = g.period then .down else .up }
    | .down =>
      if g.counter - 1 = 0 then { g with counter := 0, dir := .up, period := g.pendingPeriod }
      else { g with counter := g.counter - 1 }

/-- R96: the step ends a SINGLE run. -/
def Generator.endsRun (g : Generator) : Bool := g.mode == .single && decide (g.period ≤ g.counter)

/-- R100: the direction the compare test takes: UP in RAMP and SINGLE, the direction after the step in TRIANGLE. -/
def Generator.testDirection (g : Generator) : Direction :=
  match g.mode with
  | .triangle => g.step.dir
  | .ramp | .single | .off => .up

/-- R100: the step of `g` produces a compare event. -/
def Generator.compares (g : Generator) : Bool :=
  g.mode != .off && g.step.counter == g.compareValue && g.testDirection == g.compareDir

/-- R101: the postscale count advanced by a compare event under NOTICE. -/
def Generator.advance (g : Generator) : Generator :=
  { g with postCount := if g.postCount + 1 = g.postscale then 0 else g.postCount + 1 }

/-- R94, R101: a generator after its step and its compare event. -/
def Generator.stepped (g : Generator) : Generator :=
  if g.compares && g.notice then g.step.advance else g.step

/-- R101, R102: the notices of a step of generator `k` at the boundary that begins block `n`, COMPARE before END. -/
def Generator.stepNotices (g : Generator) (k : Fin 4) (n : Block) : List Notice :=
  (if g.compares && g.notice && g.postCount + 1 == g.postscale then
    [.variation k false n g.step.counter g.step.dir] else [])
  ++ (if g.endsRun then [.variation k true n g.step.counter g.step.dir] else [])

/-- R103: a period brought into 1..4,095. -/
def clampPeriod (p : Nat) : Nat := max 1 (min 4095 p)

/-- R103: a postscale brought into 1..16. -/
def clampPostscale (p : Nat) : Nat := max 1 (min 16 p)

/-- Table 20: the effect of writing a mode, the pending period being written already. -/
def Generator.changeMode (g : Generator) (m : GenMode) : Generator :=
  match g.mode, m with
  | .off, .off => g
  | .off, .ramp | .off, .single | .off, .triangle =>
    { g with mode := m, period := g.pendingPeriod, counter := 0, dir := .up }
  | .ramp, .off | .single, .off | .triangle, .off => { g with mode := m }
  | .triangle, .ramp | .triangle, .single => { g with mode := m, dir := .up }
  | .ramp, .triangle | .single, .triangle =>
    { g with mode := m, dir := if g.counter = g.period then .down else .up }
  | .ramp, .ramp | .single, .single | .triangle, .triangle | .ramp, .single | .single, .ramp => { g with mode := m }

/-- R103, R104: one entry of a GENERATOR-SET. -/
def genSetEntry (gens : List Generator) (e : List Byte) : List Generator × Mark :=
  match asFin 4 (byteAt e 0), genModeOf (byteAt e 1), directionOf (byteAt e 6), noticeActionOf (byteAt e 7) with
  | some k, some m, some d, some a =>
    let period := field2 e 2
    let value := field2 e 4
    let post := byteAt e 8
    let g := gens.getD k.val Generator.reset
    (gens.set k.val
      ({ g with pendingPeriod := clampPeriod period, compareValue := min 4095 value, compareDir := d, notice := a,
                postscale := clampPostscale post, postCount := 0 }.changeMode m),
     { written := true,
       clamped := clampPeriod period != period || min 4095 value != value || clampPostscale post != post })
  | _, _, _, _ => (gens, { rejected := true })

/-- R105: the direction a load writes. -/
def Generator.loadDirection (g : Generator) (c : Nat) (d : Direction) : Direction :=
  match g.mode with
  | .off => d
  | .ramp | .single => .up
  | .triangle => if c = g.period ∧ d = .up then .down else if c = 0 ∧ d = .down then .up else d

/-- R105: one entry of a GENERATOR-LOAD. -/
def genLoadEntry (gens : List Generator) (e : List Byte) : List Generator × Mark :=
  match asFin 4 (byteAt e 0), directionOf (byteAt e 3) with
  | some k, some d =>
    let g := gens.getD k.val Generator.reset
    let c := min g.period (field2 e 1)
    (gens.set k.val { g with counter := c, dir := g.loadDirection c d, postCount := 0 },
     { written := true, clamped := decide (g.period < field2 e 1) })
  | _, _ => (gens, { rejected := true })

end Sys2Proof.Machine
end

