-- ==== Sys2Proof/Machine/SwapOps.lean ====
section
/-! DEFINITION. Swaps and fades at a block boundary (chapter 2), and what the generators hand on there (R94, R101). -/

namespace Sys2Proof.Machine

/-- R33: a swap with trigger AT-BLOCK is late when it becomes pending if its block is not after the block in progress. A
block 2^31 away is neither before nor after it; that it counts as not after is the model's own choice (log 39). -/
def State.lateNow (s : State) (t : Trigger) : Bool :=
  match t, s.blockInProgress with
  | .atBlock n, some b => !blockAfter n b
  | _, _ => false

/-- R32 to R34: whether a pending swap comes due at the boundary that begins block `n`, and with which outcome;
`served` are the generators whose compare event occurred at this boundary. That an AT-BLOCK exactly 2^31 blocks away from
`n`, neither before nor after it, keeps waiting is the model's own choice (log 39). -/
def PendingSwap.due (w : PendingSwap) (served : List (Fin 4)) (n : Block) : Option RecordOutcome :=
  match w.trigger with
  | .next => some .done
  | .atBlock m =>
    if w.late then some .late
    else if n = m then some .done
    else if blockAfter n m then some .late
    else none
  | .onCompare k => if served.contains k then some .done else none

/-- R37: the fade ends: OUTGOING becomes SHADOW and its ramp records are discarded. -/
def State.endFade (s : State) : State :=
  (s.withStore { s.store with fade := false, endReady := false }).withRamps
    (s.ramps.withTaps s.store.idleBank noRamps)

/-- R35, R85: the swap of roles and its ramps, no fade being in flight. -/
def State.exchangeBanks (s : State) (fade : Fade) : State :=
  let k := s.store.idleBank
  (s.withRamps (s.ramps.forSwap k (s.store.bank k) fade)).withStore
    { s.store with active := k, fade := fade != .cut, endReady := false }

/-- R35, R36, R38: a pending swap takes effect at the boundary that begins block `n`. -/
def State.takeSwap (s : State) (w : PendingSwap) (outcome : RecordOutcome) (n : Block) : State :=
  let s := (if s.store.fade then s.endFade else s).exchangeBanks w.fade
  let s := s.withStore { s.store with swap := none }
  (s.popTable.complete w.tag .swap w.notify outcome {}).queueNotice (.swap w.tag n)

/-- R37: the fade check of a boundary at which no swap comes due, also of one that begins no pass (log 35). -/
def State.fadeCheck (s : State) : State := if s.store.fade && s.store.endReady then s.endFade else s

/-- R32 to R38: swap and fade at the boundary that begins block `n`, and whether a swap took effect. -/
def State.swapAtBoundary (s : State) (served : List (Fin 4)) (n : Block) : State × Bool :=
  match s.store.swap with
  | none => (s.fadeCheck, false)
  | some w =>
    match w.due served n with
    | some outcome => (s.takeSwap w outcome n, true)
    | none => (s.fadeCheck, false)

/-- The four generator numbers. -/
def allGens : List (Fin 4) := [0, 1, 2, 3]

def genOf (gens : List Generator) (k : Fin 4) : Generator := gens.getD k.val Generator.reset

/-- R94: whether the generators step at a boundary. -/
def State.gensStep (s : State) : Bool := s.records.node != .quiescent

/-- R101: the generators whose compare event occurs at a boundary. -/
def State.served (s : State) : List (Fin 4) := if s.gensStep then allGens.filter fun k => (genOf s.gens k).compares else []

/-- R94 to R102: the generators step at the boundary that begins block `n`, V0 first, and queue their notices. -/
def State.stepGenerators (s : State) (n : Block) : State :=
  if s.gensStep then
    (s.withGens (s.gens.map Generator.stepped)).queueNotices
      (allGens.flatMap fun k => (genOf s.gens k).stepNotices k n)
  else s

/-- R88, R89, R91: the records on the awaiting-mute list complete in list order. -/
def State.completeMutes (s : State) (outcome : RecordOutcome) : State :=
  s.withRecords (s.records.awaitingMute.foldl (fun r m => r.complete s.noticeBlock m.tag .state m.notify outcome {})
    { s.records with awaitingMute := [] })

/-- R89: a boundary counts toward the drain; at the second the node becomes MUTED and the mutes complete DONE. -/
def State.drainAtBoundary (s : State) : State :=
  match s.records.node, s.records.drain with
  | .muting, some k =>
    if 1 ≤ k then (s.withRecords { s.records with node := .muted, drain := none }).completeMutes .done
    else s.withRecords { s.records with drain := some (k + 1) }
  | _, _ => s

end Sys2Proof.Machine
end

