-- ==== Sys2Proof/Machine/LinkOps.lean ====
section
/-! DEFINITION. The link port (chapter 9): positions, capture, insertion, cells, relock, boundary, renumber and loss. -/

namespace Sys2Proof.Machine

/-! ### Insertion and forwarding -/

/-- R147, R152, Table 31: what the node writes for a channel at position `i`; none where it inserts nothing. -/
def State.insertion (s : State) (c i : Nat) : Option Sample :=
  match (s.out.copy.getD c ⟨none, none⟩).slot, s.records.node with
  | none, _ => none
  | some _, .quiescent => none
  | some _, .muted => some 0
  | some _, .run | some _, .muting => if s.link.lostZero then some 0 else some (s.out.insertedValue c i)

/-- R10: the values recorded for return lines at position `i` of a forwarded frame. -/
def State.recordRow (s : State) (i : Nat) : SlotRow := tab 16 fun c => (s.insertion c i).getD 0

/-- The local channel whose output slot in the block's copy is `n`. -/
def Output.channelOf (o : Output) (n : Nat) : Option Nat :=
  (List.range 16).find? fun c => ((o.copy.getD c ⟨none, none⟩).slot.map Fin.val) == some n

/-- R151, R152: the slots of a frame as they leave at position `i`. -/
def State.slotsOut (s : State) (f : Frame) (i : Nat) : SlotRow :=
  tab 128 fun n =>
    match s.out.channelOf n with
    | none => f.row.getD n 0
    | some c => (s.insertion c i).getD (f.row.getD n 0)

/-- R151, R154: the control bytes of a frame as they leave at position `i`. -/
def State.controlOut (s : State) (f : Frame) (i : Nat) : List Byte :=
  match s.link.cellTx with
  | none => f.controlRow
  | some b => tab 8 fun k => b.getD (8 * i + k) 0

/-- R151: the frame forwarded at position `i`; its check is written afresh when anything changed. -/
def State.forwarded (s : State) (f : Frame) (i : Nat) (bad : Bool) : Frame :=
  let g := { f with slots := s.slotsOut f i, control := s.controlOut f i,
                    flags := if bad then f.flags ||| 1 else f.flags }
  if g = f then f else g.fresh

/-! ### Positions -/

/-- R153: the control bytes of a position join the cell being received; position 0 begins it. -/
def Link.receive (l : Link) (i : Nat) (b : List Byte) (bad : Bool) : Option CellRx :=
  if i = 0 then some ⟨b, bad⟩ else l.cellRx.map fun c => ⟨c.bytes ++ b, c.bad || bad⟩

/-- R153: at position 31 the cell is handed to the record engine, or counted damaged. -/
def State.handover (s : State) : State :=
  match s.link.cellRx with
  | none => s
  | some c =>
    let s := s.withLink { s.link with cellRx := none }
    if c.bad || !cellCheckHolds c.bytes then
      s.withLink { s.link with damagedCells := countUp s.link.damagedCells 1 }
    else s.takeCell c.bytes

/-- R149: the row captured at a position: the frame's slots, or the held values at a bad position. -/
def State.captured (s : State) (f : Option Frame) (bad : Bool) : SlotRow :=
  match f with
  | none => s.link.held
  | some f => if bad then s.link.held else f.row

/-- R144, R147, R149 to R153: a position in LOCKED at which the link is not lost: capture, insertion and record,
forwarding, the cell, and the advance of the expected index. `f` is none at a missing position. At a lost frame 0 the held
values take position 0 of the filling input block, whose 32 positions are filled (R147, R149). After it nothing is captured,
and what is inserted, 0, is recorded, both in the place of the position (R147, log 13). -/
def State.takePosition (s : State) (f : Option Frame) (bad : Bool) : State :=
  let i := s.link.expected
  let lost := s.link.lostZero || (i == 0 && bad)
  let row := s.captured f bad
  let inserted := match f with
    | none => List.replicate 16 0
    | some _ => s.recordRow i
  let control := match f with
    | none => List.replicate 8 0
    | some f => f.controlRow
  let s' := (s.withLinkOut (f.map fun f => s.forwarded f i bad)).withOut
    { s.out with recording := if lost then s.out.recording.set i inserted else s.out.recording ++ [inserted] }
  let s' := s'.withLink { s.link with
    filling := if i == 0 && bad then s.link.filling.set 0 row else if lost then s.link.filling else s.link.filling ++ [row]
    held := row
    cellRx := s.link.receive i control bad
    cellTx := if i = 31 then none else s.link.cellTx
    expected := (i + 1) % 32
    lostZero := lost }
  if i = 31 then s'.handover else s'

/-- R148: the link is lost at the position being filled; its frame is not forwarded. That the recorded inserted values are
dropped, here and at a relock, is the model's own choice (log 37). -/
def State.loseLink (s : State) : State :=
  let l := { s.link with
    state := .lost, gapTimer := .stopped, expected := (s.link.expected + 1) % 32, lostZero := false
    filling := [], complete := [], cellRx := none, cellTx := none
    lossEvents := countUp s.link.lossEvents 1, damagedCells := countUp s.link.damagedCells 1 }
  (((s.withLink l).withLinkOut none).withOut { s.out with recording := [], recorded := [] }).abandonPass.advanceMem

/-- R144: a damaged or missing position: the bad-run count rises, and at 3 the link is lost. -/
def State.badPosition (s : State) (f : Option Frame) : State :=
  let s := s.withLink { s.link with badRun := s.link.badRun + 1 }
  if 3 ≤ s.link.badRun then s.loseLink else s.takePosition f true

/-- R154: at a good frame of index 0 whose cell is IDLE the oldest notice is taken into the block's cell. -/
def State.placeNotice (s : State) (f : Frame) : State :=
  match s.records.notices with
  | n :: rest =>
    if f.controlRow.getD 0 0 = 0x00 then
      (s.withRecords { s.records with notices := rest }).withLink { s.link with cellTx := some (n.cell s.position) }
    else s
  | [] => s

/-- R29: the copies of the output slots and guard groups. -/
def State.copyChannels (s : State) : State :=
  s.withOut { s.out with copy := tab 16 fun c => ⟨(s.store.channel c).slot, (s.store.channel c).group⟩ }

/-! ### Relock, boundary, renumber -/

/-- R155: a LINK notice. -/
def linkNotice (renumber : Bool) (new former : Block) : Notice := .link renumber new former (new - former)

/-- R143: a good frame of index 0 in SEEKING relocks the link and is taken as position 0 (the recorded inserted values: log
37). -/
def State.relock (s : State) (f : Frame) : State :=
  let l := { s.link with
    state := .locked, block := f.block, badRun := 0, expected := 0, gapTimer := .oneAndHalfPeriods, lostZero := false
    filling := [], complete := [], cellRx := none, cellTx := none }
  let s' := ((s.withLink l).withLines { s.lines with floor := f.block }).withOut { s.out with recording := [], recorded := [] }
  (((s'.queueNotice (linkNotice false f.block s.link.block)).copyChannels).placeNotice f).takePosition (some f) false

/-- R143: an arrival in SEEKING. -/
def State.seek (s : State) (f : Frame) : State :=
  if f.good ∧ f.index = 0 then s.relock f else s.withLinkOut (some f)

/-- R145: the link port's own part of a block boundary: input blocks, inserted values, block number. -/
def State.turnBlock (s : State) (n : Block) : State :=
  (s.withLink { s.link with complete := s.link.filling, filling := [], block := n, badRun := 0, lostZero := false }).withOut
    { s.out with recorded := s.out.recording, recording := [] }

/-- R12, R58, R146: what a renumber adds: the pass in flight is abandoned, the floor set, a LINK notice queued. -/
def State.renumber (s : State) (former n : Block) : State :=
  (s.abandonPass.withLines { s.lines with floor := n }).queueNotice (linkNotice true n former)

/-- R55, R113: the output buffers exchange roles, and the new filling buffer is set to zeros. -/
def State.exchangeBuffers (s : State) : State :=
  s.withOut { s.out with insert := s.out.filling, filling := OutBuffer.zeros }

/-- R145, R146: a block boundary that closes block `b` and begins block `n`, taken by every block of the node. The order
is that of R43, R54, R55 and R145 as far as they give one (log 10). -/
def State.boundary (s : State) (b n : Block) (renumbered : Bool) : State :=
  let s := s.turnBlock n
  let s := if renumbered then s.renumber b n else s
  let served := s.served
  let x := (s.stepGenerators n).swapAtBoundary served n
  let s := (x.1.closePass x.2).exchangeBuffers
  let s := s.copyChannels
  let s := (s.withOut s.out.takeSilencePending).drainAtBoundary
  let s := if s.passMayBegin && !renumbered then s.beginPass b else s.beginNoPass n
  s.reapEnding.advanceMem

/-- R144: a position filled by an arrival is damaged. -/
def Link.damages (l : Link) (f : Frame) : Bool :=
  !f.good || f.index.toNat != l.expected || (l.expected != 0 && f.block != l.block)

/-- R142, R144 to R146: an arrival in LOCKED. -/
def State.lockedArrival (s : State) (f : Frame) : State :=
  let s := s.withLink { s.link with gapTimer := .oneAndHalfPeriods }
  if s.link.damages f then
    (s.withLink { s.link with damagedFrames := countUp s.link.damagedFrames 1 }).badPosition (some f)
  else if s.link.expected = 0 then
    ((s.boundary s.link.block f.block (f.block != s.link.block + 1)).placeNotice f).takePosition (some f) false
  else (s.withLink { s.link with badRun := 0 }).takePosition (some f) false

/-- R114, R122: what every arrival does first, whatever the link state: the GUARD-B line is sampled and a FRAME silence
change takes hold. -/
def State.atArrival (s : State) (guardB : Bool) : State :=
  let s := s.sampleGuardB guardB
  s.withOut s.out.takeSilenceNext

/-- R142, R143, R148: the link port takes an arrival by its state. -/
def State.takeArrival (s : State) (f : Frame) : State :=
  match s.link.state with
  | .seeking => s.seek f
  | .lost => (s.withLink { s.link with state := .seeking }).seek f
  | .locked => s.lockedArrival f

/-- R114, R122, R142: a frame arrives on LINK-IN. -/
def State.arrival (s : State) (f : Frame) (guardB : Bool) : State := (s.atArrival guardB).takeArrival f

/-- R142, R144: the frame-gap timer runs out; it runs in LOCKED alone. -/
def State.gapExpiry (s : State) : State :=
  match s.link.state with
  | .locked =>
    (s.withLink { s.link with gapTimer := .onePeriod, missingFrames := countUp s.link.missingFrames 1 }).badPosition none
  | .seeking | .lost => s

end Sys2Proof.Machine
end

