-- ==== Sys2Proof/Machine/Events.lean ====
section
/-! DEFINITION. The meanings of the reset and link events, and of the events of the tap engine and the delay memory
controller. An event that is not due changes nothing (log 2). -/

namespace Sys2Proof.Machine

/-! ### Power-on and the reset pin -/

/-- R179: the position 2·POS1 + POS0. -/
def strapPosition (pos1 pos0 : Bool) : Fin 4 :=
  match pos1, pos0 with
  | false, false => 0
  | false, true => 1
  | true, false => 2
  | true, true => 3

/-- R177, R178, Table 43: every block at its power-on values; the DRAM holds what it kept (log 6). -/
def State.powerOnValues (s : State) : State :=
  { State.reset with
    pending := s.pending, resetPin := s.resetPin, position := s.position, dram := s.unrefreshed,
    powerCycle := s.powerCycle + 1, passSerial := s.passSerial }

/-- POWER_ON (R178, R179). -/
def execPowerOn (pos1 pos0 : Bool) (s : State) : Out :=
  .next { s.powerOnValues with position := strapPosition pos1 pos0 }

/-- RESET_PIN_ASSERT (R178): the position is kept until the next read of the straps. -/
def execResetPinAssert (s : State) : Out := .next (if s.resetPin then s else { s.powerOnValues with resetPin := true })

/-- RESET_PIN_RELEASE (R178, R179). -/
def execResetPinRelease (pos1 pos0 : Bool) (s : State) : Out :=
  .next (if s.resetPin then { s with resetPin := false, position := strapPosition pos1 pos0 } else s)

/-! ### The hall link -/

/-- FRAME_ARRIVAL (R114, R122, R141 to R154). -/
def execFrameArrival (frame : Frame) (guardB : Bool) (s : State) : Out := s.running fun s => s.arrival frame guardB

/-- FRAME_GAP_EXPIRY (R142, R144, R148). -/
def execFrameGapExpiry (s : State) : Out := s.running State.gapExpiry

/-! ### Bursts and FINISHING -/

/-- R132: a request joins the burst request queue. -/
def State.requestBurst (s : State) : State :=
  if s.mem.accepts then
    match s.tap.nextBurst s.store with
    | some (q, t) => ((s.withTap t).withMem { s.mem with queue := s.mem.queue ++ [q] }).advanceMem
    | none => s
  else s

/-- BURST_REQUEST (R44 to R48, R132). -/
def execBurstRequest (s : State) : Out := s.running State.requestBurst

/-- R134: the burst's access: a write stores its values, a read hands its words back. -/
def State.access (s : State) (q : BurstRequest) : State :=
  match q.kind with
  | .write values =>
    (s.withDram (writeBurst s.dram q.line q.position values)).withTap (s.tap.writeServed q.serial)
  | .read => s.withTap (s.tap.readReturned q (readBurst s.powerCycle s.dram q.line q.position))

/-- R132, R134: the oldest burst's service ends and it leaves the queue. -/
def State.endBurst (s : State) : State :=
  match s.mem.service, s.mem.queue with
  | .burst, q :: rest =>
    (((s.access q).withMem
      ({ s.mem with queue := rest, service := .none, periods := 0 }.openFor q)).reapEnding).advanceMem
  | _, _ => s

/-- BURST_SERVICE_END (R49, R50, R132 to R135, R139). -/
def execBurstServiceEnd (s : State) : Out := s.running State.endBurst

/-- R54: the FINISHING of the current pass completes. -/
def State.completeFinishing (s : State) : State :=
  match s.tap.state, s.tap.pass with
  | .finishing, some p => ((s.finishUncut p false).reapEnding).advanceMem
  | _, _ => s

/-- FINISHING_COMPLETE (R53, R54, R110 to R113). -/
def execFinishingComplete (s : State) : Out := s.running State.completeFinishing

/-! ### Refresh and the memory sequences -/

/-- R136: the refresh timer runs out, when it runs. -/
def State.refreshExpiry (s : State) : State :=
  match s.mem.timer with
  | .running _ => (s.withMem s.mem.refreshDue).advanceMem
  | .stopped | .expired => s

/-- REFRESH_DUE (R136, R137). -/
def execRefreshDue (s : State) : Out := s.running State.refreshExpiry

/-- R136, R137: the refresh in service ends. -/
def State.endRefresh (s : State) : State :=
  if s.mem.service = .refresh then (s.withMem s.mem.refreshEnd).advanceMem else s

/-- REFRESH_END (R136 to R138). -/
def execRefreshEnd (s : State) : Out := s.running State.endRefresh

/-- R127: the initialization ends. -/
def State.endInitialization (s : State) : State :=
  if s.mem.state = .initializing then
    (((s.withMem { s.mem.arriveReady with owed := 0 }).completeSetup).floorToProgress).advanceMem
  else s

/-- MEMORY_INIT_COMPLETE (R12, R127, R130). -/
def execMemoryInitComplete (s : State) : Out := s.running State.endInitialization

/-- R128: the SETTING phase ends. -/
def State.endModeSet (s : State) : State :=
  if s.mem.state = .setting ∧ s.mem.service = .modeSet then
    ((s.withMem s.mem.arriveReady).completeSetup).advanceMem
  else s

/-- MODE_SET_COMPLETE (R128, R130). -/
def execModeSetComplete (s : State) : Out := s.running State.endModeSet

/-- R130: the self-refresh entry command is issued. -/
def MemController.enterSelfRefresh (m : MemController) : MemController :=
  { m with state := .held, bankTable := allClosed, owed := 0, timer := .stopped, service := .none, periods := 0 }

/-- R130: the phase ENTERING ends. -/
def State.endEntering (s : State) : State :=
  if s.mem.state = .entering ∧ s.mem.service = .selfRefreshEntry then s.withMem s.mem.enterSelfRefresh else s

/-- SELF_REFRESH_ENTRY (R130). -/
def execSelfRefreshEntry (s : State) : Out := s.running State.endEntering

/-- R131: the LEAVING sequence ends. -/
def State.endLeaving (s : State) : State :=
  if s.mem.state = .leaving then (s.withMem { s.mem.arriveReady with owed := 0 }).advanceMem else s

/-- SELF_REFRESH_EXIT (R131). -/
def execSelfRefreshExit (s : State) : Out := s.running State.endLeaving

end Sys2Proof.Machine
end

