-- ==== Sys2Proof/Machine/Status.lean ====
section
/-! DEFINITION. The STATUS notice: the coding of every block's state in its body (Table 39). -/

namespace Sys2Proof.Machine

def NodeState.code : NodeState → Nat
  | .run => 0 | .muting => 1 | .muted => 2 | .quiescent => 3

def MemState.code : MemState → Nat
  | .uninit => 0 | .initializing => 1 | .ready => 2 | .draining => 3
  | .setting => 4 | .entering => 5 | .held => 6 | .leaving => 7

def LinkState.code : LinkState → Nat
  | .seeking => 0 | .locked => 1 | .lost => 2

def Interval.code : Interval → Nat
  | .us78 => 0 | .us39 => 1

def OverrideMode.code : OverrideMode → Nat
  | .follow => 0 | .silence => 1 | .lineMonitor => 2

def GenMode.code : GenMode → Nat
  | .off => 0 | .ramp => 1 | .single => 2 | .triangle => 3

def GuardAction.code : GuardAction → Nat
  | .mute => 0 | .attenuate s => s

def Fade.code : Fade → Nat
  | .exponent e => e | .cut => 255

/-- Offsets 0 to 5: the node, the memory and its setup parameters. -/
def statusNodeAndMemory (s : State) : List Byte :=
  put1 s.records.node.code ++ put1 s.mem.state.code ++ put1 s.mem.refreshCount ++ put1 s.mem.interval.code
    ++ put1 s.mem.latency ++ put1 s.mem.owed

/-- Offsets 6 to 24: the link, its block numbers, the history floor and the four counters. -/
def statusLink (s : State) : List Byte :=
  put1 s.link.state.code ++ put1 s.link.expected ++ put1 s.link.badRun ++ put4 s.link.block.toNat
    ++ put4 s.lines.floor.toNat ++ put2 s.link.damagedFrames.toNat ++ put2 s.link.missingFrames.toNat
    ++ put2 s.link.lossEvents.toNat ++ put2 s.link.damagedCells.toNat

/-- Offset 25: overflow, GUARD-B, ACTIVE bank, fade in flight, pointer lock, swap pending. That bits 6 and 7,
to which Table 39 gives no meaning, are 0 is the model's own choice (log 40). -/
def statusBits (s : State) : List Byte :=
  put1 (bit s.records.overflow 1 + bit s.out.guardB 2 + bit (s.store.active == 1) 4 + bit s.store.fade 8
    + bit s.store.pointerLocked 16 + bit s.store.swap.isSome 32)

/-- Offsets 26 to 32: the pending swap; a field its trigger does not read is 0 (R31). -/
def statusSwap (w : Option PendingSwap) : List Byte :=
  match w with
  | none => put1 255 ++ put4 0 ++ put1 0 ++ put1 0
  | some w =>
    (match w.trigger with
     | .next => put1 0 ++ put4 0 ++ put1 0
     | .atBlock n => put1 1 ++ put4 n.toNat ++ put1 0
     | .onCompare k => put1 2 ++ put4 0 ++ put1 k.val) ++ put1 w.fade.code

/-- Offsets 41 to 168: one local channel, 8 bytes. That bits 5 to 7 of the override byte, to which Table 39 gives no
meaning, are 0 is the model's own choice (log 40). -/
def statusChannel (s : State) (c : Nat) : List Byte :=
  let x := s.store.channel c
  let change := match s.out.silencePending.getD c none with
    | none => 0
    | some true => 8
    | some false => 16
  put2 (s.out.saturation.getD c 0).toNat ++ put2 x.setGain.toNat
    ++ put2 (s.ramps.masters.getD c Ramp.idleAtZero).current.toNat
    ++ put1 (x.override.code + bit (s.out.silence.getD c false) 4 + change) ++ put1 x.monitorLine.val

/-- Offsets 169 to 208: one generator, 10 bytes. That bit 7 of the mode byte, to which Table 39 gives no meaning, is 0 is the
model's own choice (log 40). -/
def statusGenerator (g : Generator) : List Byte :=
  put1 (g.mode.code + 16 * g.dir.code + 32 * g.compareDir.code + bit g.notice 64) ++ put2 g.period
    ++ put2 g.pendingPeriod ++ put2 g.counter ++ put2 g.compareValue ++ put1 (16 * (g.postscale - 1) + g.postCount)

/-- The byte of one guard source: enable, BLOCK, action, TRIPPED. That bits 6 and 7, to which Table 39 gives no meaning, are
0 is the model's own choice (log 40). -/
def guardSourceByte (enable : Bool) (m : GuardMode) (a : GuardAction) (tripped : Bool) : List Byte :=
  put1 (bit enable 1 + bit (m == .block) 2 + 4 * a.code + bit tripped 32)

/-- Offsets 209 to 236: one guard group, 7 bytes. -/
def statusGroup (g : GuardGroup) : List Byte :=
  guardSourceByte g.aEnable g.aMode g.aAction g.aTripped ++ put3 g.threshold ++ put1 g.limit ++ put1 g.count
    ++ guardSourceByte g.bEnable g.bMode g.bAction g.bTripped

/-- Table 39: the 237 bytes of a STATUS body. -/
def State.statusBody (s : State) : List Byte :=
  statusNodeAndMemory s ++ statusLink s ++ statusBits s ++ statusSwap s.store.swap ++ put2 s.store.pointer
    ++ put2 s.tap.cutCount.toNat ++ put2 s.tap.cutRun.toNat ++ put1 s.ramps.unitA ++ put1 s.ramps.unitB
    ++ (List.range 16).flatMap (statusChannel s)
    ++ (List.range 4).flatMap (fun k => statusGenerator (s.gens.getD k Generator.reset))
    ++ (List.range 4).flatMap (fun k => statusGroup (s.out.group k))

end Sys2Proof.Machine
end

