-- ==== Sys2Proof/Machine/LiveRecords.lean ====
section
/-! DEFINITION. The meanings of the live-class records, which execute at the head of the live-class queue (R164), and of
RESTART. -/

namespace Sys2Proof.Machine

/-- R165: a record whose body has a wrong length completes MALFORMED and changes nothing. -/
def State.liveList (s : State) (r : Record) (ok : Bool) (f : State) : State :=
  if ok then f else s.completeLive r .malformed {}

/-! ### Gains -/

/-- R24: one pair of a TAP-GAIN: the stored gain is replaced and the entry's ramp retargeted. -/
def tapGainEntry (s : State) (e : List Byte) : State × Mark :=
  let i := field2 e 0
  let k := s.store.active
  match (s.store.bank k).getD i none with
  | some x =>
    let y := { x with gain := BitVec.ofNat 16 (field2 e 2) }
    ((s.withStore (s.store.withBank k ((s.store.bank k).set i (some y)))).withRamps
      (s.ramps.retargetTap k i x y.gainInt), { written := true })
  | none => (s, { rejected := true })

/-- R24: a TAP-GAIN executes. -/
def State.tapGain (s : State) (r : Record) : State :=
  s.liveList r (isList 4 r.body)
    (let x := takeEntries tapGainEntry (entriesOf 4 r.body) 0 s {}
     x.1.completeLive r x.2.outcome x.2.counts)

/-- TAP_GAIN (R24, R82, R83). -/
def execTapGain (s : State) : Out := s.running fun s => s.atLiveHead .tapGain s.tapGain

/-- The set master gain of a channel replaced. -/
def Store.withSetGain (t : Store) (c : Nat) (g : Half) : Store :=
  { t with channels := t.channels.set c { t.channel c with setGain := g } }

/-- R84: one pair of a MASTER-GAIN; the ramp is retargeted in RUN alone. -/
def masterGainEntry (s : State) (e : List Byte) : State × Mark :=
  match s.localChannel (byteAt e 0) with
  | none => (s, {})
  | some c =>
    let g : Half := BitVec.ofNat 16 (field2 e 1)
    let s := s.withStore (s.store.withSetGain c.val g)
    (if s.records.node = .run then s.withRamps (s.ramps.retargetMaster c.val g.toNat) else s, { written := true })

/-- R84: a MASTER-GAIN executes. -/
def State.masterGain (s : State) (r : Record) : State :=
  s.liveList r (isList 3 r.body)
    (let x := takeEntries masterGainEntry (entriesOf 3 r.body) 0 s {}
     x.1.completeLive r .done x.2.counts)

/-- MASTER_GAIN (R82, R84). -/
def execMasterGain (s : State) : Out := s.running fun s => s.atLiveHead .masterGain s.masterGain

/-! ### Overrides -/

/-- R121: the override field of a channel replaced; the monitor line changes under LINE-MONITOR alone. -/
def Store.withOverride (t : Store) (c : Nat) (m : OverrideMode) (line : Fin 64) : Store :=
  let x := t.channel c
  { t with channels := t.channels.set c
             { x with override := m, monitorLine := if m = .lineMonitor then line else x.monitorLine } }

/-- R121, R122: one channel of an OVERRIDE. -/
def overrideEntry (m : OverrideMode) (line : Fin 64) (block : Bool) (s : State) (e : List Byte) : State × Mark :=
  match s.localChannel (byteAt e 0) with
  | none => (s, {})
  | some c =>
    ((s.withStore (s.store.withOverride c.val m line)).withOut (s.out.changeSilence c.val (m == .silence) block),
     { written := true })

/-- R121: the mode, line and timing of an OVERRIDE, when they are valid. A line is read for LINE-MONITOR alone. -/
def overrideOf (b : List Byte) : Option (OverrideMode × Fin 64 × Bool) :=
  match overrideModeOf (byteAt b 0), noticeActionOf (byteAt b 2) with
  | some .lineMonitor, some timing => (asFin 64 (byteAt b 1)).map fun l => (.lineMonitor, l, timing)
  | some m, some timing => some (m, 0, timing)
  | none, _ | _, none => none

/-- R121: an OVERRIDE executes. -/
def State.override (s : State) (r : Record) : State :=
  s.liveList r (decide (4 ≤ r.body.length))
    (match overrideOf r.body with
     | none => s.completeLive r .malformed {}
     | some (m, line, block) =>
       let x := takeEntries (overrideEntry m line block) (entriesOf 1 (r.body.drop 3)) 0 s {}
       x.1.completeLive r .done x.2.counts)

/-- OVERRIDE (R121 to R123). -/
def execOverride (s : State) : Out := s.running fun s => s.atLiveHead .override s.override

/-! ### The guard -/

/-- R117: a GUARD-SET executes. -/
def State.guardSet (s : State) (r : Record) : State :=
  s.liveList r (isList 9 r.body)
    (let x := takeEntries (guardSetEntry r.tag) (entriesOf 9 r.body) 0 s {}
     x.1.completeLive r x.2.outcome x.2.counts)

/-- GUARD_SET (R113, R117, R119). -/
def execGuardSet (s : State) : Out := s.running fun s => s.atLiveHead .guardSet s.guardSet

/-- R118: a GUARD-RELEASE executes. -/
def State.guardRelease (s : State) (r : Record) : State :=
  s.liveList r (isList 2 r.body)
    (let x := takeEntries (guardReleaseEntry r.tag) (entriesOf 2 r.body) 0 s {}
     x.1.completeLive r x.2.outcome x.2.counts)

/-- GUARD_RELEASE (R113, R118, R119). -/
def execGuardRelease (s : State) : Out := s.running fun s => s.atLiveHead .guardRelease s.guardRelease

/-! ### Generators and ramp units -/

/-- R103: a GENERATOR-SET executes. -/
def State.generatorSet (s : State) (r : Record) : State :=
  s.liveList r (isList 9 r.body)
    (let x := takeEntries genSetEntry (entriesOf 9 r.body) 0 s.gens {}
     (s.withGens x.1).completeLive r x.2.outcome x.2.counts)

/-- GENERATOR_SET (R99, R103, R104). -/
def execGeneratorSet (s : State) : Out := s.running fun s => s.atLiveHead .generatorSet s.generatorSet

/-- R105: a GENERATOR-LOAD executes. -/
def State.generatorLoad (s : State) (r : Record) : State :=
  s.liveList r (isList 4 r.body)
    (let x := takeEntries genLoadEntry (entriesOf 4 r.body) 0 s.gens {}
     (s.withGens x.1).completeLive r x.2.outcome x.2.counts)

/-- GENERATOR_LOAD (R105). -/
def execGeneratorLoad (s : State) : Out := s.running fun s => s.atLiveHead .generatorLoad s.generatorLoad

/-- R79: the exponent a code gives a unit, and how it counts. -/
def unitCode (old code : Nat) : Nat × Mark :=
  if code ≤ 6 then (code, { written := true })
  else if code = 255 then (old, {})
  else (6, { written := true, clamped := true })

/-- R79: a RAMP-SET executes: unit A is entry 0 and unit B entry 1. -/
def State.rampSet (s : State) (r : Record) : State :=
  s.liveList r (r.body.length == 2)
    (let a := unitCode s.ramps.unitA (byteAt r.body 0)
     let b := unitCode s.ramps.unitB (byteAt r.body 1)
     let t := ((({} : Tally).add 0 a.2).add 1 b.2)
     (s.withRamps { s.ramps with unitA := a.1, unitB := b.1 }).completeLive r t.outcome t.counts)

/-- RAMP_SET (R78, R79). -/
def execRampSet (s : State) : Out := s.running fun s => s.atLiveHead .rampSet s.rampSet

/-! ### CANCEL-SWAP -/

/-- R39: a CANCEL-SWAP executes: the pending swap completes CANCELLED before the CANCEL-SWAP completes. -/
def State.cancelSwap (s : State) (r : Record) : State :=
  s.liveList r (r.body.length == 0)
    (match s.store.swap with
     | none => s.completeLive r .done {}
     | some w =>
       (((s.withStore { s.store with swap := none }).popTable).complete w.tag .swap w.notify .cancelled {}).completeLive r
         .done { written := 1 })

/-- CANCEL_SWAP (R39). -/
def execCancelSwap (s : State) : Out := s.running fun s => s.atLiveHead .cancelSwap s.cancelSwap

/-! ### STATE -/

/-- Table 35: a STATE record with one of the four requests; one of any other body completes MALFORMED (R165 and below Table
35), by any of the four commands (log 20). -/
def State.stateRecord (s : State) (request : Nat) (f : Record → State) : State :=
  s.atLiveHead .state fun r =>
    s.liveList r (r.body.length == 1 && decide (byteAt r.body 0 < 4))
      (if byteAt r.body 0 = request then f r else s)

/-- The node state replaced. -/
def State.withNode (s : State) (n : NodeState) : State := s.withRecords { s.records with node := n }

/-- R88: a MUTE joins the awaiting-mute list, leaving the live-class queue. -/
def State.awaitMute (s : State) (r : Record) : State :=
  s.popLive.withRecords { s.popLive.records with awaitingMute := s.popLive.records.awaitingMute ++ [⟨r.tag, r.notify⟩] }

/-- R88, R89: a MUTE executes. -/
def State.mute (s : State) (r : Record) : State :=
  match s.records.node with
  | .run =>
    let t := (s.awaitMute r).withNode .muting
    (t.withRamps (t.ramps.retargetMasters fun _ => 0)).muteCheck
  | .muting => if s.records.awaitingMute.length < 4 then s.awaitMute r else s.completeLive r .busy {}
  | .muted => s.completeLive r .done {}
  | .quiescent => s.completeLive r .order {}

/-- STATE_MUTE (R88, R89, R92). -/
def execStateMute (s : State) : Out := s.running fun s => s.stateRecord 1 s.mute

/-- R91: the node becomes RUN and every master ramp is retargeted to its set gain. -/
def State.play (s : State) : State :=
  let t := s.withRecords { s.records with node := .run, drain := none }
  t.withRamps (t.ramps.retargetMasters fun c => ((t.store.channel c).setGain.toNat : Int))

/-- R91: a RUN executes. -/
def State.runNode (s : State) (r : Record) : State :=
  match s.records.node with
  | .muted => s.play.completeLive r .done {}
  | .muting => (s.play.completeMutes .cancelled).completeLive r .done {}
  | .run => s.completeLive r .done {}
  | .quiescent => s.completeLive r .order {}

/-- STATE_RUN (R91, R92). -/
def execStateRun (s : State) : Out := s.running fun s => s.stateRecord 0 s.runNode

/-- R174: a QUIESCE executes. -/
def State.quiesce (s : State) (r : Record) : State :=
  match s.records.node with
  | .muted => (((s.withNode .quiescent).withMem s.mem.quiesce).completeLive r .done { written := 1 }).advanceMem
  | .run | .muting | .quiescent => s.completeLive r .order {}

/-- STATE_QUIESCE (R129, R130, R174). -/
def execStateQuiesce (s : State) : Out := s.running fun s => s.stateRecord 2 s.quiesce

/-- R175: a WAKE executes. -/
def State.wake (s : State) (r : Record) : State :=
  match s.records.node with
  | .quiescent =>
    (((s.withNode .muted).floorToProgress.withMem s.mem.wake).completeLive r .done { written := 1 }).advanceMem
  | .run | .muting | .muted => s.completeLive r .done {}

/-- STATE_WAKE (R12, R130, R131, R175). -/
def execStateWake (s : State) : Out := s.running fun s => s.stateRecord 3 s.wake

/-! ### STATUS-READ -/

/-- R72, R52, R156, R166: the counters that a STATUS-READ may clear. -/
def State.clearCounters (s : State) : State :=
  ((s.withOut { s.out with saturation := List.replicate 16 0 }).withTap { s.tap with cutCount := 0 }).withLink
    { s.link with damagedFrames := 0, missingFrames := 0, lossEvents := 0, damagedCells := 0 }

/-- R164, R166: a STATUS-READ executes once the notice queue has a free place; the STATUS notice answers it. Its length is
checked when it executes, so one of a wrong length waits for the free place too (log 34). -/
def State.statusRead (s : State) (r : Record) : State :=
  if 8 ≤ s.records.notices.length then s
  else
    s.liveList r (r.body.length == 1)
      (let t := s.queueNotice (.status r.tag s.statusBody)
       let t := (t.withRecords { t.records with overflow := false }).popLive
       if (r.body.getD 0 0).getLsbD 0 then t.clearCounters else t)

/-- STATUS_READ (R164, R166, R167). -/
def execStatusRead (s : State) : Out := s.running fun s => s.atLiveHead .statusRead s.statusRead

/-! ### RESTART -/

/-- R168, R177, Table 43: every block as a RESTART leaves it, the pass being abandoned before the floor is set. -/
def State.restartBlocks (s : State) : State :=
  let t := s.abandonPass
  ({ t with
      link := { t.link with damagedFrames := 0, missingFrames := 0, lossEvents := 0, damagedCells := 0 }
      records := { Records.reset with restarts := t.records.restarts }
      store := Store.reset
      lines := { t.lines with map := Lines.reset.map }
      tap := { t.tap with acc := clearedAccumulators, cursor := ⟨0, 0⟩, cutCount := 0, cutRun := 0 }
      ramps := Ramps.reset
      gens := List.replicate 4 Generator.reset
      out := { Output.reset with guardB := t.out.guardB, copy := t.out.copy,
                                 recording := t.out.recording, recorded := t.out.recorded }
      mem := t.mem.wake } : State).floorToProgress

/-- R168: a RESTART executes, provided its body is empty. -/
def State.restart (s : State) : State :=
  match s.records.restarts with
  | [] => s
  | r :: rest =>
    let s := s.withRecords { s.records with restarts := rest }
    if r.body = [] then
      ((s.restartBlocks).queueNotice (.restarted r.tag s.noticeBlock)).advanceMem
    else s.complete r.tag r.op r.notify .malformed {}

/-- RESTART (R168, R177). -/
def execRestart (s : State) : Out := s.running State.restart

end Sys2Proof.Machine
end

