-- ==== Sys2Proof/Machine/TableRecords.lean ====
section
/-! DEFINITION. The meanings of the table-class records: each executes the record at the head of the table-class queue
(R30, R163, R164). -/

namespace Sys2Proof.Machine

/-- R165: a record whose body has a wrong length completes MALFORMED and changes nothing. -/
def State.tableList (s : State) (r : Record) (ok : Bool) (f : State) : State :=
  if ok then f else s.completeTable r .malformed {}

/-- R30, Table 10: TAP-WRITE, TAP-CLEAR and COPY-ACTIVE wait at the head while a fade is in flight. Their lengths are checked
when they execute, so that one of a wrong length waits too (R21 of a TAP-WRITE; log 36 of the others). -/
def State.unlessFading (s t : State) : State := if s.store.fade then s else t

/-! ### TAP-WRITE -/

/-- R18: the entry stored for a 16-byte wire entry at the node's position, and how it counts. -/
def checkTapEntry (position : Fin 4) (e : List Byte) : Option TapEntry × Mark :=
  let c := byteAt e 0
  if c = 255 then (none, { written := true })
  else if c / 16 ≠ position.val then (none, { written := true, foreign := true })
  else match asFin 64 (byteAt e 1) with
    | none => (none, { written := true, rejected := true })
    | some line =>
      let x := tapEntryOf ⟨c % 16, Nat.mod_lt _ (by decide)⟩ line e
      (some x.1, { written := true, clamped := x.2 })

/-- R20: the pointer loaded with a start index. -/
def Store.loadPointer (t : Store) (start : Nat) : Store :=
  { t with pointer := min 1023 start, pointerLocked := decide (1024 ≤ start) }

/-- R20: the pointer after an entry was stored. -/
def Store.advancePointer (t : Store) : Store :=
  if t.pointer < 1023 then { t with pointer := t.pointer + 1 } else { t with pointerLocked := true }

/-- R18, R20: one entry of a TAP-WRITE. -/
def tapWriteEntry (position : Fin 4) (t : Store) (e : List Byte) : Store × Mark :=
  if t.pointerLocked then (t, { discarded := true })
  else
    let x := checkTapEntry position e
    ((t.withBank t.idleBank ((t.bank t.idleBank).set t.pointer x.1)).advancePointer, x.2)

/-- R21: the record's body matches its count field. -/
def tapWriteLength (b : List Byte) : Bool := decide (4 ≤ b.length) && b.length == 4 + 16 * field2 b 2

/-- R20, R21: a TAP-WRITE executes. -/
def State.tapWrite (s : State) (r : Record) : State :=
  s.tableList r (tapWriteLength r.body)
    (let x := takeEntries (tapWriteEntry s.position) (entriesOf 16 (r.body.drop 4)) 0
        (s.store.loadPointer (field2 r.body 0)) {}
     (s.withStore x.1).completeTable r x.2.outcome x.2.counts)

/-- TAP_WRITE (R18 to R21, R30). -/
def execTapWrite (s : State) : Out :=
  s.running fun s => s.atTableHead .tapWrite fun r => s.unlessFading (s.tapWrite r)

/-! ### TAP-CLEAR -/

/-- R22: how many indices of the range lie within 0..1,023. -/
def clearLength (first count : Nat) : Nat := min count (1024 - first)

/-- R22: a bank with `n` entries from `first` on VACANT. -/
def clearRange (b : Bank) (first n : Nat) : Bank := b.take first ++ (List.replicate n none ++ b.drop (first + n))

/-- R22: a TAP-CLEAR executes. -/
def State.tapClear (s : State) (r : Record) : State :=
  s.tableList r (r.body.length == 4)
    (let first := field2 r.body 0
     let count := field2 r.body 2
     let n := clearLength first count
     (s.withStore (s.store.withBank s.store.idleBank (clearRange (s.store.bank s.store.idleBank) first n))).completeTable r
       (if n < count then .doneWithClamps else .done) { written := n, clamped := count - n })

/-- TAP_CLEAR (R19, R22, R30). -/
def execTapClear (s : State) : Out :=
  s.running fun s => s.atTableHead .tapClear fun r => s.unlessFading (s.tapClear r)

/-! ### COPY-ACTIVE -/

/-- R23: a COPY-ACTIVE executes. -/
def State.copyActive (s : State) (r : Record) : State :=
  s.tableList r (r.body.length == 0)
    ((s.withStore (s.store.withBank s.store.idleBank (s.store.bank s.store.active))).completeTable r .done { written := 1024 })

/-- COPY_ACTIVE (R19, R23, R30). -/
def execCopyActive (s : State) : Out :=
  s.running fun s => s.atTableHead .copyActive fun r => s.unlessFading (s.copyActive r)

/-! ### SWAP -/

/-- R31, R33: a SWAP at the head is checked and becomes pending; one that is pending waits. -/
def State.swapRecord (s : State) (r : Record) : State :=
  match s.store.swap with
  | some _ => s
  | none =>
    s.tableList r (r.body.length == 7)
      (match triggerOf r.body, fadeOf (byteAt r.body 6) with
       | some t, some f => s.withStore { s.store with swap := some ⟨t, f, s.lateNow t, r.tag, r.notify⟩ }
       | _, _ => s.completeTable r .malformed {})

/-- SWAP (R31 to R33). -/
def execSwap (s : State) : Out := s.running fun s => s.atTableHead .swap s.swapRecord

/-! ### LINE-MAP -/

/-- R6: one entry of a LINE-MAP. -/
def lineMapEntry (m : List LineSource) (e : List Byte) : List LineSource × Mark :=
  match asFin 64 (byteAt e 0), lineSourceOf (byteAt e 1) (byteAt e 2) with
  | some l, some x => (m.set l.val x, { written := true })
  | _, _ => (m, { rejected := true })

/-- R6: a LINE-MAP executes. -/
def State.lineMap (s : State) (r : Record) : State :=
  s.tableList r (isList 3 r.body)
    (let x := takeEntries lineMapEntry (entriesOf 3 r.body) 0 s.lines.map {}
     (s.withLines { s.lines with map := x.1 }).completeTable r x.2.outcome x.2.counts)

/-- LINE_MAP (R6). -/
def execLineMap (s : State) : Out := s.running fun s => s.atTableHead .lineMap s.lineMap

/-! ### OUTPUT-MAP -/

/-- R28: whether another channel than `c` holds a slot. -/
def slotTaken (channels : List Channel) (c : Nat) (slot : Option (Fin 128)) : Bool :=
  slot.isSome && (List.range 16).any fun k => k != c && (channels.getD k Channel.reset).slot == slot

/-- R28: every other channel than `c` that holds a slot loses it. -/
def displace (channels : List Channel) (c : Nat) (slot : Option (Fin 128)) : List Channel :=
  tab 16 fun k =>
    let x := channels.getD k Channel.reset
    if k ≠ c ∧ slot.isSome ∧ x.slot = slot then { x with slot := none } else x

/-- R27, R28: one entry of an OUTPUT-MAP; `localChannel` says whether the node owns a global channel. -/
def outputMapEntry (localChannel : Nat → Option (Fin 16)) (channels : List Channel) (e : List Byte) : List Channel × Mark :=
  match localChannel (byteAt e 0) with
  | none => (channels, {})
  | some c =>
    match slotOf (byteAt e 1), groupOf (byteAt e 2) with
    | some slot, some group =>
      let after := displace channels c.val slot
      (after.set c.val { after.getD c.val Channel.reset with slot := slot, group := group },
       { written := true, clamped := slotTaken channels c.val slot })
    | _, _ => (channels, { rejected := true })

/-- R27: an OUTPUT-MAP executes. -/
def State.outputMap (s : State) (r : Record) : State :=
  s.tableList r (isList 3 r.body)
    (let x := takeEntries (outputMapEntry s.localChannel) (entriesOf 3 r.body) 0 s.store.channels {}
     (s.withStore { s.store with channels := x.1 }).completeTable r x.2.outcome x.2.counts)

/-- OUTPUT_MAP (R27, R28). -/
def execOutputMap (s : State) : Out := s.running fun s => s.atTableHead .outputMap s.outputMap

/-! ### MEMORY-SETUP -/

/-- R30, Table 10: the states in which a MEMORY-SETUP is held at the head. -/
def MemState.holdsSetup : MemState → Bool
  | .initializing | .draining | .setting => true
  | .uninit | .ready | .entering | .held | .leaving => false

/-- R126: the refresh count brought into 2..15. -/
def clampRefreshCount (n : Nat) : Nat := max 2 (min 15 n)

/-- R126, Table 26: checked parameters replace the stored ones, and the record acts by the memory state. -/
def State.applySetup (s : State) (r : Record) (count : Nat) (interval : Interval) (latency : Nat) : State :=
  let clamped := clampRefreshCount count != count
  let m := { s.mem with refreshCount := clampRefreshCount count, interval := interval, latency := latency }
  let started := s.withRecords { s.records with setup := some clamped }
  match s.mem.state with
  | .uninit => started.withMem m.initialize
  | .ready => (started.withMem { m with state := .draining }).advanceMem
  | .entering | .held | .leaving =>
    (s.withMem m).completeTable r (if clamped then .doneWithClamps else .done) { written := 1, clamped := bit clamped 1 }
  | .initializing | .draining | .setting => s

/-- R126: a MEMORY-SETUP executes, when it is not held. -/
def State.memorySetup (s : State) (r : Record) : State :=
  if s.mem.state.holdsSetup then s
  else
    s.tableList r (r.body.length == 3)
      (match intervalOf (byteAt r.body 1), byteAt r.body 2 with
       | some i, 2 => s.applySetup r (byteAt r.body 0) i 2
       | some i, 3 => s.applySetup r (byteAt r.body 0) i 3
       | _, _ => s.completeTable r .malformed {})

/-- MEMORY_SETUP (R126 to R128, R130). -/
def execMemorySetup (s : State) : Out := s.running fun s => s.atTableHead .memorySetup s.memorySetup

end Sys2Proof.Machine
end

