-- ==== Sys2Proof/Machine/Dispatch.lean ====
section
/-! DEFINITION. The meaning of every command: one arm for each row of spec/opcode_table.json. -/

namespace Sys2Proof.Machine

/-- The effect of a command on everything but the queue. -/
def exec (i : Instr) (s : State) : Host.Outcome State Fault Refusal :=
  match i with
  | .powerOn pos1 pos0 => Sys2Proof.Machine.execPowerOn pos1 pos0 s
  | .resetPinAssert => Sys2Proof.Machine.execResetPinAssert s
  | .resetPinRelease pos1 pos0 => Sys2Proof.Machine.execResetPinRelease pos1 pos0 s
  | .frameArrival frame guardB => Sys2Proof.Machine.execFrameArrival frame guardB s
  | .frameGapExpiry => Sys2Proof.Machine.execFrameGapExpiry s
  | .burstRequest => Sys2Proof.Machine.execBurstRequest s
  | .burstServiceEnd => Sys2Proof.Machine.execBurstServiceEnd s
  | .finishingComplete => Sys2Proof.Machine.execFinishingComplete s
  | .refreshDue => Sys2Proof.Machine.execRefreshDue s
  | .refreshEnd => Sys2Proof.Machine.execRefreshEnd s
  | .memoryInitComplete => Sys2Proof.Machine.execMemoryInitComplete s
  | .modeSetComplete => Sys2Proof.Machine.execModeSetComplete s
  | .selfRefreshEntry => Sys2Proof.Machine.execSelfRefreshEntry s
  | .selfRefreshExit => Sys2Proof.Machine.execSelfRefreshExit s
  | .tapWrite => Sys2Proof.Machine.execTapWrite s
  | .tapClear => Sys2Proof.Machine.execTapClear s
  | .copyActive => Sys2Proof.Machine.execCopyActive s
  | .swap => Sys2Proof.Machine.execSwap s
  | .lineMap => Sys2Proof.Machine.execLineMap s
  | .outputMap => Sys2Proof.Machine.execOutputMap s
  | .memorySetup => Sys2Proof.Machine.execMemorySetup s
  | .tapGain => Sys2Proof.Machine.execTapGain s
  | .masterGain => Sys2Proof.Machine.execMasterGain s
  | .override => Sys2Proof.Machine.execOverride s
  | .guardSet => Sys2Proof.Machine.execGuardSet s
  | .guardRelease => Sys2Proof.Machine.execGuardRelease s
  | .generatorSet => Sys2Proof.Machine.execGeneratorSet s
  | .generatorLoad => Sys2Proof.Machine.execGeneratorLoad s
  | .rampSet => Sys2Proof.Machine.execRampSet s
  | .cancelSwap => Sys2Proof.Machine.execCancelSwap s
  | .stateMute => Sys2Proof.Machine.execStateMute s
  | .stateRun => Sys2Proof.Machine.execStateRun s
  | .stateQuiesce => Sys2Proof.Machine.execStateQuiesce s
  | .stateWake => Sys2Proof.Machine.execStateWake s
  | .statusRead => Sys2Proof.Machine.execStatusRead s
  | .restart => Sys2Proof.Machine.execRestart s

end Sys2Proof.Machine
end

