-- ==== Sys2Proof/Safety.lean ====
section
/-! DEFINITION. What the claims speak of: where a record stands when it executes, what power-on leaves, and the
invariants of a node that runs. -/

namespace Sys2Proof.Safety

open Machine

/-! ### When a command has its effect -/

/-- The reset pin is released and record `r`, of operation `op`, stands at the head of the table-class queue. -/
def AtTable (s : State) (op : Op) (r : Record) : Prop :=
  s.resetPin = false ∧ s.records.table.head? = some r ∧ r.op = op

/-- The reset pin is released and record `r`, of operation `op`, stands at the head of the live-class queue. -/
def AtLive (s : State) (op : Op) (r : Record) : Prop :=
  s.resetPin = false ∧ s.records.live.head? = some r ∧ r.op = op

/-- A good frame of index 0 arrives at the expected index 0 in LOCKED: a boundary or a renumber (R145, R146). -/
def AtBoundary (s : State) (f : Frame) : Prop :=
  s.resetPin = false ∧ s.link.state = .locked ∧ s.link.expected = 0 ∧ f.good = true ∧ f.index = 0

/-- R144: the tests by which a position filled by frame `f` is damaged. -/
def Damaged (l : Link) (f : Frame) : Prop :=
  f.good = false ∨ f.index.toNat ≠ l.expected ∨ (l.expected ≠ 0 ∧ f.block ≠ l.block)

/-- R144: frame `f` fills a position of the block in progress that begins no block, and is not damaged there. -/
def GoodInBlock (s : State) (f : Frame) : Prop :=
  s.resetPin = false ∧ s.link.state = .locked ∧ 0 < s.link.expected ∧ s.link.expected < 32 ∧ f.good = true ∧
    f.index.toNat = s.link.expected ∧ f.block = s.link.block

/-- R147, R152, Table 31: what a node in a node state writes in the output slot of a channel whose inserted value is `v`;
none where it inserts nothing. `lost` says that frame 0 of the block was lost. -/
def insertsAs (node : NodeState) (lost : Bool) (v : Sample) : Option Sample :=
  match node with
  | .run | .muting => some (if lost then 0 else v)
  | .muted => some 0
  | .quiescent => none

/-- R151, R154: control byte `k` of a frame `f` as it leaves from position `i`: its own, or that of the block's notice
cell. -/
def controlLeaves (cell : Option (List Byte)) (f : Frame) (i k : Nat) : Byte :=
  match cell with
  | none => f.controlRow.getD k 0
  | some b => b.getD (8 * i + k) 0

/-- R10, R151, Table 31: the slots and the control bytes with which frame `f` leaves as `x` from position `i`, and the row
recorded for return lines, in a node state, with an output stage and the block's own notice cell. -/
structure LeavesAs (node : NodeState) (lost : Bool) (o : Output) (cell : Option (List Byte)) (i : Nat) (f x : Frame)
    (row : SlotRow) : Prop where
  passed : ∀ n : Fin 128, (∀ c < 16, (o.copy.getD c ⟨none, none⟩).slot ≠ some n) →
    x.slots.getD n.val 0 = f.row.getD n.val 0
  inserted : ∀ n : Fin 128, ∀ c < 16, (o.copy.getD c ⟨none, none⟩).slot = some n →
    x.slots.getD n.val 0 = (insertsAs node lost (o.insertedValue c i)).getD (f.row.getD n.val 0)
  recorded : ∀ c < 16, row.getD c 0 =
    if (o.copy.getD c ⟨none, none⟩).slot = none then 0 else (insertsAs node lost (o.insertedValue c i)).getD 0
  control : ∀ k < 8, x.control.getD k 0 = controlLeaves cell f i k

/-- R134: the oldest burst of the queue, `q`, is in service. -/
def Serving (s : State) (q : BurstRequest) : Prop :=
  s.resetPin = false ∧ s.mem.service = .burst ∧ s.mem.queue.head? = some q

/-- R32 to R34: a pending swap comes due at the boundary that begins block `n`. That an AT-BLOCK exactly 2^31 blocks away
keeps waiting is the model's own choice (log 39). -/
def ComesDue (s : State) (w : PendingSwap) (n : Block) : Prop :=
  match w.trigger with
  | .next => True
  | .atBlock m => w.late = true ∨ n = m ∨ 0 < (n - m).toInt
  | .onCompare k => s.records.node ≠ .quiescent ∧ (genOf s.gens k).compares = true

/-- R35, R37, R85: the ramps as the judging of the swap and the fade at the boundary that begins block `n` leaves them,
before any of them steps. -/
structure RampsJudged (s : State) (n : Block) (r : Ramps) : Prop where
  swapped : ∀ w, s.store.swap = some w → ComesDue s w n → r = (s.takeSwap w .done n).ramps
  fadeEnded : (∀ w, s.store.swap = some w → ¬ComesDue s w n) → s.store.fade = true → s.store.endReady = true →
    r = s.ramps.withTaps (otherBank s.store.active) (List.replicate 1024 none)
  kept : (∀ w, s.store.swap = some w → ¬ComesDue s w n) → s.store.fade = false ∨ s.store.endReady = false → r = s.ramps

/-! ### The notices of an event -/

/-- R114, R115, R119: the GUARD notices of a sample `g` of the GUARD-B line. -/
def lineNotices (s : State) (g : Bool) : List Notice :=
  [0, 1, 2, 3].flatMap fun k : Fin 4 =>
    let x := s.out.group k.val
    let tripped := if x.bEnable then (if x.bMode = .block then g else x.bTripped || g) else x.bTripped
    if tripped = x.bTripped then [] else [.guard 0 k .b tripped s.noticeBlock 0 0]

/-- R111, R112, R119: the GUARD notices of the FINISHING of pass `p` from the accumulators `acc`. -/
def detectorNotices (o : Output) (p : Pass) (acc : List (List Acc)) : List Notice :=
  [0, 1, 2, 3].flatMap fun k : Fin 4 =>
    let x := o.group k.val
    let peak := groupPeak p.snapshot.groups (p.values acc) k
    if (x.detect peak).aTripped = x.aTripped then []
    else [.guard 0 k .a (x.detect peak).aTripped (p.number + 2) peak (x.detect peak).count]

/-- R36: the notices of a swap that comes due at the boundary that begins block `n`: its completion, then the SWAP. -/
def swapNotices (s : State) (n : Block) : List Notice :=
  match s.store.swap with
  | none => []
  | some w =>
    match w.due s.served n with
    | none => []
    | some o => (if o = .done ∧ w.notify = false then [] else [.completion w.tag Op.swap.code o {} n]) ++ [.swap w.tag n]

/-- R52: the CUT notice of a cut that begins a run. -/
def cutNotices (s : State) (p : Pass) : List Notice :=
  if s.tap.cutRun = 0 then [.cut (p.number + 2) p.done p.snapshot.due] else []

/-- R51 to R53, R110: the notices of the close of the current pass at a boundary that abandons none. -/
def closeNotices (s : State) : List Notice :=
  match s.tap.pass, s.tap.state with
  | some p, .writing => cutNotices s p ++ detectorNotices s.out p clearedAccumulators
  | some p, .tapping => cutNotices s p ++ detectorNotices s.out p s.tap.acc
  | some p, .finishing => detectorNotices s.out p s.tap.acc
  | some _, .idle | none, _ => []

/-- R89: the completions of the mutes that a drain ends at the boundary that begins block `n`. -/
def muteNotices (s : State) (n : Block) : List Notice :=
  match s.records.node, s.records.drain with
  | .muting, some (_ + 1) =>
    (s.records.awaitingMute.filter AwaitingMute.notify).map fun m => .completion m.tag Op.state.code .done {} n
  | _, _ => []

/-- The notices of the arrival of the frame `f` that raises a boundary or a renumber, in the order of log 10: GUARD-B, LINK,
the generators, the swap, the close of the pass, the mutes. -/
def boundaryNotices (s : State) (f : Frame) (g : Bool) : List Notice :=
  lineNotices s g
    ++ (if f.block = s.link.block + 1 then [] else [.link true f.block s.link.block (f.block - s.link.block)])
    ++ (if s.records.node = .quiescent then []
        else [0, 1, 2, 3].flatMap fun k : Fin 4 => (s.gens.getD k.val Generator.reset).stepNotices k f.block)
    ++ swapNotices s f.block
    ++ (if f.block = s.link.block + 1 then closeNotices s else [])
    ++ muteNotices s f.block

/-- How the entries of a record count, one after another. -/
def marksOf {σ : Type} (f : σ → List Byte → σ × Mark) : List (List Byte) → σ → List Mark
  | [], _ => []
  | e :: es, x => (f x e).2 :: marksOf f es (f x e).1

/-- The 16 bytes of entry `k` of a TAP-WRITE body. -/
def wireEntry (body : List Byte) (k : Nat) : List Byte := (body.drop (4 + 16 * k)).take 16

/-- How many entries of a TAP-WRITE are stored before the pointer locks (R20). -/
def storedCount (start count : Nat) : Nat := min count (1024 - start)

/-! ### What the controller does next -/

/-- R139: every pass begun has given its end. -/
def NoPass (t : State) : Prop := t.tap.pass = none ∧ t.tap.ending = []

/-- R133, R134, Table 28: the periods of the service of burst `q`: none, 3 or 6 to open its row, and its access. -/
def servicePeriods (m : MemController) (q : BurstRequest) : Nat :=
  (match m.bankTable.getD (bankOf q.position.val) none with
   | none => 3
   | some row => if row.val = rowOf q.line.val q.position.val then 0 else 3 + 3) +
  match q.kind with
  | .read => 8 + m.latencyInForce
  | .write _ => 8

/-- R134, R137, R138: the service that a free controller has begun: a refresh where the queue is empty and one is owed, or
where eight are owed; else the oldest burst; else none. -/
structure NextOfQueue (m : MemController) : Prop where
  nothing : m.queue = [] → m.owed = 0 → m.service = .none
  refresh : (m.queue = [] ∧ 0 < m.owed) ∨ (m.queue ≠ [] ∧ 8 ≤ m.owed) → m.service = .refresh ∧ m.periods = 3 + 10
  burst : ∀ q rest, m.queue = q :: rest → m.owed < 8 → m.service = .burst ∧ m.periods = servicePeriods m q

/-- R128, R130, R134, R137 to R139: how the controller `m`, as an event leaves it, goes on in the state `t` after the event.
DRAINING turns to SETTING when no pass is left to wait for; a service once begun goes on; a free controller begins what its
phase serves next, and the self-refresh entry only with no pass, an empty queue and no refresh owed. That a refresh in
service when DRAINING ends is one of those that SETTING serves is the model's reading (log 18). -/
structure GoesOn (m : MemController) (t : State) : Prop where
  rest : t.mem = { m with
    state := t.mem.state, settingRefreshes := t.mem.settingRefreshes, service := t.mem.service, periods := t.mem.periods }
  drained : m.state = .draining → NoPass t → t.mem.state = .setting ∧ t.mem.settingRefreshes = m.owed
  kept : m.state ≠ .draining ∨ ¬NoPass t → t.mem.state = m.state ∧ t.mem.settingRefreshes = m.settingRefreshes
  busy : m.service ≠ .none → t.mem.service = m.service ∧ t.mem.periods = m.periods
  served : m.service = .none → t.mem.state = .ready ∨ t.mem.state = .draining → NextOfQueue t.mem
  entering : m.service = .none → t.mem.state = .entering →
    ¬(NoPass t ∧ t.mem.queue = [] ∧ t.mem.owed = 0) → NextOfQueue t.mem
  entry : m.service = .none → t.mem.state = .entering → NoPass t → t.mem.queue = [] → t.mem.owed = 0 →
    t.mem.service = .selfRefreshEntry ∧ t.mem.periods = 3 + 2
  setting : m.service = .none → t.mem.state = .setting →
    (0 < t.mem.settingRefreshes → t.mem.service = .refresh ∧ t.mem.periods = 3 + 10) ∧
    (t.mem.settingRefreshes = 0 → t.mem.service = .modeSet ∧ t.mem.periods = 3 + 2 + 4)
  idle : m.service = .none → t.mem.state = .uninit ∨ t.mem.state = .initializing ∨ t.mem.state = .held ∨
    t.mem.state = .leaving → t.mem.service = .none

/-- R132: burst `q` joins the tail of the queue, and the controller goes on. -/
def Joins (s t : State) (q : BurstRequest) : Prop := GoesOn { s.mem with queue := s.mem.queue ++ [q] } t

/-- R129 to R131, Table 29: the controller after a WAKE or a RESTART took the request away. An entry in service is called off,
which the model reads so (log 17). -/
structure Woken (s t : State) : Prop where
  entering : s.mem.state = .entering → s.mem.service ≠ .selfRefreshEntry →
    GoesOn { s.mem with selfRefresh := false, state := .ready } t
  calledOff : s.mem.state = .entering → s.mem.service = .selfRefreshEntry → GoesOn { s.mem with
    selfRefresh := false, state := .ready, bankTable := [none, none, none, none], service := .none, periods := 0 } t
  held : s.mem.state = .held → t.mem = { s.mem with
    selfRefresh := false, state := .leaving, service := .leaving, periods := 26 + 3 + 2 + 4 }
  others : s.mem.state ≠ .entering → s.mem.state ≠ .held → GoesOn { s.mem with selfRefresh := false } t

/-! ### Passes that end -/

/-- R45, R54, R139: an ending pass has not given its end: it has write bursts to hand over, or bursts in the queue. -/
def stillEnding (queue : List BurstRequest) (e : EndingPass) : Bool :=
  e.write.any (fun w => decide (w.handed < 256)) || queue.any fun q => q.serial == e.serial

/-- R57: the ending passes after an abandonment, the current pass among them. That all of them hand no more over is the
model's reading (log 19). -/
def abandonedPasses (s : State) : List EndingPass :=
  (s.tap.ending.map fun e => { e with write := none }) ++
    match s.tap.pass with
    | none => []
    | some p => [(⟨p.number, p.serial, none⟩ : EndingPass)]

/-- R45, R51, R53, R54, R71, R72, R110: what the FINISHING of pass `p` at a boundary that abandons none leaves in `t`, from
the accumulators `acc`, the pass keeping the write stage `write`. The fade check comes before its report (log 12), also at a
boundary that begins no pass (log 35). -/
structure PassCloses (s t : State) (p : Pass) (acc : List (List Acc)) (write : Option WriteStage) : Prop where
  values : t.out.insert.values = p.values acc
  groups : ∀ k : Fin 4, t.out.group k.val =
    { (s.out.group k.val).detect (groupPeak p.snapshot.groups (p.values acc) k) with
      bTripped := (t.out.group k.val).bTripped }
  verdicts : ∀ k : Fin 4, t.out.insert.verdicts.getD k.val false =
    ((s.out.group k.val).aEnable && (t.out.group k.val).aTripped)
  saturation : ∀ c < 16, t.out.saturation.getD c 0 = countUp (s.out.saturation.getD c 0)
    ((List.range 32).filter fun j => saturates (p.value acc c j)).length
  ending : t.tap.ending = (s.tap.ending ++ [(⟨p.number, p.serial, write⟩ : EndingPass)]).filter (stillEnding s.mem.queue)
  report : (∀ w, s.store.swap = some w → ¬ComesDue s w t.link.block) → t.store.endReady =
    if s.store.fade = true ∧ s.store.endReady = true then false
    else s.store.endReady || (s.store.fade && p.snapshot.fade && p.snapshot.outgoingIdle)

/-- R132 to R135, R139: burst `q`, in service, has been served: it left the queue with its row open, the controller goes on,
and the ending passes that waited for it alone have given their end. -/
structure BurstEnds (s t : State) (q : BurstRequest) : Prop where
  goesOn : GoesOn { s.mem with
    queue := s.mem.queue.drop 1, service := .none, periods := 0
    bankTable := s.mem.bankTable.set (bankOf q.position.val) (asFin 4096 (rowOf q.line.val q.position.val)) } t
  ending : t.tap.ending = s.tap.ending.filter (stillEnding (s.mem.queue.drop 1))

/-- R4, R44: the write burst `q` that a write stage of the pass with serial `n` hands over next. -/
structure IsWriteBurst (q : BurstRequest) (w : WriteStage) (n : Nat) : Prop where
  kind : q.kind = .write (tab 8 fun i => w.value (w.handed / 4) (8 * (w.handed % 4) + i))
  line : q.line.val = w.handed / 4
  position : q.position.val = (32 * w.number.toNat + 8 * (w.handed % 4)) % 131072
  owner : q.number = w.number ∧ q.serial = n ∧ q.part = .writeStage

/-- R48: the read burst `q` that the read `r` of a tap hands over next. -/
structure IsTapBurst (q : BurstRequest) (p : Pass) (r : TapRead) : Prop where
  kind : q.kind = .read
  line : q.line = r.line
  position : q.position.val =
    (positionOf (timeOf (p.number + 2) 0 - BitVec.ofNat 37 (r.delay + 1)) / 8 * 8 + 8 * r.handed) % 131072
  owner : q.number = p.number ∧ q.serial = p.serial ∧ q.part = .tap r.bank r.index

/-- R46: entry `i` of bank `k` is the next tap from the cursor on: the first ACTIVE entry of the cursor's bank from its
index on, or, when that bank has none left, is the ACTIVE one and a fade is played, the first of the other bank. -/
def IsNextTap (s : State) (p : Pass) (k : BankNo) (i : Nat) (e : TapEntry) : Prop :=
  (s.store.bank k).getD i none = some e ∧
    ((k = s.tap.cursor.bank ∧ s.tap.cursor.index ≤ i ∧
        ∀ j, s.tap.cursor.index ≤ j → j < i → (s.store.bank k).getD j none = none) ∨
      (s.tap.cursor.bank = p.snapshot.active ∧ p.snapshot.fade = true ∧ k = otherBank p.snapshot.active ∧
        (∀ j, s.tap.cursor.index ≤ j → (s.store.bank s.tap.cursor.bank).getD j none = none) ∧
        ∀ j, j < i → (s.store.bank k).getD j none = none))

/-- R52, R57, R148: what a loss of the link leaves of the state `s` before it. That the ending passes lose their write stages
too is the model's reading (log 19). -/
structure LinkLost (s t : State) : Prop where
  link : t.link.state = .lost ∧ t.link.gapTimer = .stopped ∧ t.link.block = s.link.block ∧ t.link.held = s.link.held
  discarded : t.link.filling = [] ∧ t.link.complete = [] ∧ t.link.cellRx = none ∧ t.link.cellTx = none
  counted : t.link.lossEvents = countUp s.link.lossEvents 1 ∧ t.link.damagedCells = countUp s.link.damagedCells 1
  forwarded : t.linkOut = none
  abandoned : t.tap.pass = none ∧ t.tap.cutCount = s.tap.cutCount ∧
    t.tap.ending = (abandonedPasses s).filter (stillEnding s.mem.queue)
  inFlight : s.tap.pass ≠ none → t.tap.state = .idle ∧ t.tap.cutRun = 0 ∧ t.tap.acc = List.replicate 16 (List.replicate 32 0)
  noneInFlight : s.tap.pass = none → t.tap = { s.tap with ending := t.tap.ending }
  buffers : t.out.insert = OutBuffer.zeros ∧ t.out.filling = OutBuffer.zeros
  memory : GoesOn s.mem t
  kept : t.store = s.store ∧ t.ramps = s.ramps ∧ t.gens = s.gens ∧ t.lines = s.lines ∧ t.dram = s.dram ∧
    t.position = s.position

/-- R163, R169: the record engine after record `r` left the head of the table-class queue and completed. -/
def tableDone (s : State) (r : Record) (o : RecordOutcome) (c : Counts) : Records :=
  { s.records with table := s.records.table.drop 1 }.complete s.noticeBlock r.tag r.op r.notify o c

/-- R163, R169: the record engine after record `r` left the head of the live-class queue and completed. -/
def liveDone (s : State) (r : Record) (o : RecordOutcome) (c : Counts) : Records :=
  { s.records with live := s.records.live.drop 1 }.complete s.noticeBlock r.tag r.op r.notify o c

/-- R165: the body of a list record with entries of `n` bytes is a whole number of entries, and at least one. -/
def IsList (n : Nat) (r : Record) : Prop := n ≤ r.body.length ∧ r.body.length % n = 0

/-- R126: the refresh count of a MEMORY-SETUP body lies outside 2..15. -/
def setupClamps (r : Record) : Bool := decide (byteAt r.body 0 < 2 ∨ 15 < byteAt r.body 0)

/-- R127, R128: the record engine after the MEMORY-SETUP that began a sequence completed, if it is still there. -/
def setupCompleted (s : State) : Records :=
  match s.records.setup, s.records.table with
  | some clamped, r :: rest =>
    { s.records with setup := none, table := rest }.complete s.noticeBlock r.tag r.op r.notify
      (if clamped then .doneWithClamps else .done) { written := 1, clamped := bit clamped 1 }
  | _, _ => s.records

/-- R126, R127, R130, R136: the controller as it arrives at READY, or goes on at once to ENTERING, with `owed` refreshes
owed. -/
def arrived (m : MemController) (owed : Nat) : MemController :=
  { m with state := if m.selfRefresh then .entering else .ready, timer := .running m.interval, latencyInForce := m.latency,
           bankTable := [none, none, none, none], owed := owed, settingRefreshes := 0, service := .none, periods := 0 }

/-! ### The notices on the wire -/

/-- R171: bytes `n` to 253 of the cell `b` are 0. -/
def PaddedFrom (b : List Byte) (n : Nat) : Prop := ∀ i, n ≤ i → i < 254 → b.getD i 0 = 0

/-- R171, Tables 37 and 38: the tag, the kind and the body that the cell `b` of a notice carries. -/
def CellSays (b : List Byte) : Notice → Prop
  | .completion tag op o c n => field2 b 2 = tag.toNat ∧ byteAt b 4 = 1 ∧ b.getD 5 0 = op ∧ byteAt b 6 = o.code ∧
      field2 b 7 = c.written % 65536 ∧ field2 b 9 = c.clamped % 65536 ∧ field2 b 11 = c.rejected % 65536 ∧
      field2 b 13 = c.foreign % 65536 ∧ field2 b 15 = c.first % 65536 ∧ field4 b 17 = n.toNat ∧ PaddedFrom b 21
  | .guard tag k x tripped n peak count => field2 b 2 = tag.toNat ∧ byteAt b 4 = 2 ∧ byteAt b 5 = k.val ∧
      byteAt b 6 = (match x with | .a => 0 | .b => 1) ∧ byteAt b 7 = tripped.toNat ∧ field4 b 8 = n.toNat ∧
      field3 b 12 = peak % 16777216 ∧ byteAt b 15 = count % 256 ∧ PaddedFrom b 16
  | .variation k isEnd n counter d => field2 b 2 = 0 ∧ byteAt b 4 = 3 ∧ byteAt b 5 = k.val ∧ byteAt b 6 = isEnd.toNat ∧
      field4 b 7 = n.toNat ∧ field2 b 11 = counter % 65536 ∧ byteAt b 13 = (match d with | .up => 0 | .down => 1) ∧
      PaddedFrom b 14
  | .link renumber new former gap => field2 b 2 = 0 ∧ byteAt b 4 = 4 ∧ byteAt b 5 = renumber.toNat ∧
      field4 b 6 = new.toNat ∧ field4 b 10 = former.toNat ∧ field4 b 14 = gap.toNat ∧ PaddedFrom b 18
  | .cut n done due => field2 b 2 = 0 ∧ byteAt b 4 = 5 ∧ field4 b 5 = n.toNat ∧ field2 b 9 = done % 65536 ∧
      field2 b 11 = due % 65536 ∧ PaddedFrom b 13
  | .swap tag n => field2 b 2 = tag.toNat ∧ byteAt b 4 = 6 ∧ field4 b 5 = n.toNat ∧ PaddedFrom b 9
  | .status tag body => field2 b 2 = tag.toNat ∧ byteAt b 4 = 7 ∧
      (body.length = 237 → (∀ i < 237, b.getD (5 + i) 0 = body.getD i 0) ∧ PaddedFrom b 242)
  | .restarted tag n => field2 b 2 = tag.toNat ∧ byteAt b 4 = 8 ∧ field4 b 5 = n.toNat ∧ PaddedFrom b 9

/-- Table 39, offsets 41 to 168: the 8 bytes of local channel `c` from offset `i` of `b` on. Bits 5 to 7 of the override
byte are 0 by the model's own choice (log 40). -/
structure ChannelBytes (s : State) (b : List Byte) (c i : Nat) : Prop where
  saturation : field2 b i = (s.out.saturation.getD c 0).toNat
  setGain : field2 b (i + 2) = (s.store.channel c).setGain.toNat
  gain : field2 b (i + 4) = (s.ramps.masters.getD c ⟨0, 0, 1, 1⟩).current.toNat % 65536
  mode : byteAt b (i + 6) % 4 = match (s.store.channel c).override with | .follow => 0 | .silence => 1 | .lineMonitor => 2
  silence : (b.getD (i + 6) 0).getLsbD 2 = s.out.silence.getD c false
  pending : byteAt b (i + 6) / 8 = match s.out.silencePending.getD c none with | none => 0 | some true => 1 | some false => 2
  line : byteAt b (i + 7) = (s.store.channel c).monitorLine.val

/-- Table 39, offsets 169 to 208: the 10 bytes of generator `g` from offset `i` of `b` on. Bit 7 of the mode byte is 0 by
the model's own choice (log 40). -/
structure GeneratorBytes (g : Generator) (b : List Byte) (i : Nat) : Prop where
  mode : byteAt b i % 16 = match g.mode with | .off => 0 | .ramp => 1 | .single => 2 | .triangle => 3
  bits : (b.getD i 0).getLsbD 4 = (g.dir == .down) ∧ (b.getD i 0).getLsbD 5 = (g.compareDir == .down) ∧
    (b.getD i 0).getLsbD 6 = g.notice ∧ byteAt b i < 128
  periods : field2 b (i + 1) = g.period ∧ field2 b (i + 3) = g.pendingPeriod
  counter : field2 b (i + 5) = g.counter ∧ field2 b (i + 7) = g.compareValue
  postscale : byteAt b (i + 9) / 16 = g.postscale - 1 ∧ byteAt b (i + 9) % 16 = g.postCount

/-- Table 39: one byte of a guard source. Bits 6 and 7 are 0 by the model's own choice (log 40). -/
def SourceByte (x : Byte) (enable : Bool) (m : GuardMode) (a : GuardAction) (tripped : Bool) : Prop :=
  x.getLsbD 0 = enable ∧ x.getLsbD 1 = (m == .block) ∧ x.getLsbD 5 = tripped ∧ x.toNat < 64 ∧
    x.toNat / 4 % 8 = match a with | .mute => 0 | .attenuate n => n

/-- Table 39, offsets 209 to 236: the 7 bytes of guard group `g` from offset `i` of `b` on. -/
structure GroupBytes (g : GuardGroup) (b : List Byte) (i : Nat) : Prop where
  a : SourceByte (b.getD i 0) g.aEnable g.aMode g.aAction g.aTripped
  detector : field3 b (i + 1) = g.threshold ∧ byteAt b (i + 4) = g.limit ∧ byteAt b (i + 5) = g.count
  b : SourceByte (b.getD (i + 6) 0) g.bEnable g.bMode g.bAction g.bTripped

/-- Table 39: the bytes `b` of a STATUS body formed in the state `s`. Bits 6 and 7 of byte 25 are 0 by the model's own choice
(log 40). -/
structure StatusLayout (s : State) (b : List Byte) : Prop where
  length : b.length = 237
  node : byteAt b 0 = match s.records.node with | .run => 0 | .muting => 1 | .muted => 2 | .quiescent => 3
  memory : byteAt b 1 = match s.mem.state with
    | .uninit => 0 | .initializing => 1 | .ready => 2 | .draining => 3
    | .setting => 4 | .entering => 5 | .held => 6 | .leaving => 7
  parameters : byteAt b 2 = s.mem.refreshCount % 256 ∧ byteAt b 3 = (match s.mem.interval with | .us78 => 0 | .us39 => 1) ∧
    byteAt b 4 = s.mem.latency % 256 ∧ byteAt b 5 = s.mem.owed % 256
  link : byteAt b 6 = (match s.link.state with | .seeking => 0 | .locked => 1 | .lost => 2) ∧
    byteAt b 7 = s.link.expected % 256 ∧ byteAt b 8 = s.link.badRun % 256
  blocks : field4 b 9 = s.link.block.toNat ∧ field4 b 13 = s.lines.floor.toNat
  counters : field2 b 17 = s.link.damagedFrames.toNat ∧ field2 b 19 = s.link.missingFrames.toNat ∧
    field2 b 21 = s.link.lossEvents.toNat ∧ field2 b 23 = s.link.damagedCells.toNat
  flags : (b.getD 25 0).getLsbD 0 = s.records.overflow ∧ (b.getD 25 0).getLsbD 1 = s.out.guardB ∧
    (b.getD 25 0).getLsbD 2 = (s.store.active == 1) ∧ (b.getD 25 0).getLsbD 3 = s.store.fade ∧
    (b.getD 25 0).getLsbD 4 = s.store.pointerLocked ∧ (b.getD 25 0).getLsbD 5 = s.store.swap.isSome ∧ byteAt b 25 < 64
  noSwap : s.store.swap = none → byteAt b 26 = 255 ∧ ∀ i, 27 ≤ i → i ≤ 32 → byteAt b i = 0
  swap : ∀ w, s.store.swap = some w →
    (w.trigger = .next → byteAt b 26 = 0 ∧ field4 b 27 = 0 ∧ byteAt b 31 = 0) ∧
    (∀ n, w.trigger = .atBlock n → byteAt b 26 = 1 ∧ field4 b 27 = n.toNat ∧ byteAt b 31 = 0) ∧
    (∀ k, w.trigger = .onCompare k → byteAt b 26 = 2 ∧ field4 b 27 = 0 ∧ byteAt b 31 = k.val) ∧
    (w.fade = .cut → byteAt b 32 = 255) ∧ ∀ x, w.fade = .exponent x → byteAt b 32 = x % 256
  pointer : field2 b 33 = s.store.pointer % 65536
  cuts : field2 b 35 = s.tap.cutCount.toNat ∧ field2 b 37 = s.tap.cutRun.toNat
  units : byteAt b 39 = s.ramps.unitA % 256 ∧ byteAt b 40 = s.ramps.unitB % 256
  channels : ∀ c < 16, ChannelBytes s b c (41 + 8 * c)

/-! ### Table 43, the power-on column -/

/-- The values that power-on and the reset pin give every block, where the manual states them. -/
structure AtPowerOn (s : State) : Prop where
  link : s.link.state = .seeking ∧ s.link.block = 0 ∧ s.link.gapTimer = .stopped
  captured : s.link.held = List.replicate 128 0 ∧ s.link.filling = [] ∧ s.link.complete = []
  cells : s.link.cellRx = none ∧ s.link.cellTx = none
  linkCounters : s.link.damagedFrames = 0 ∧ s.link.missingFrames = 0 ∧ s.link.lossEvents = 0 ∧ s.link.damagedCells = 0
  records : s.records.assembly = none ∧ s.records.live = [] ∧ s.records.table = [] ∧ s.records.awaitingMute = []
  notices : s.records.notices = [] ∧ s.records.overflow = false
  node : s.records.node = .muted
  banks : s.store.bank0 = List.replicate 1024 none ∧ s.store.bank1 = List.replicate 1024 none
  roles : s.store.active = 0 ∧ s.store.fade = false ∧ s.store.endReady = false ∧ s.store.swap = none
  pointer : s.store.pointer = 0 ∧ s.store.pointerLocked = false
  channels : s.store.channels = List.replicate 16 ⟨none, none, 32768, .follow, 0⟩
  lines : s.lines.map = List.replicate 64 .none ∧ s.lines.floor = 0
  tap : s.tap.state = .idle ∧ s.tap.pass = none ∧ s.tap.ending = [] ∧ s.tap.cutCount = 0 ∧ s.tap.cutRun = 0
  accumulators : s.tap.acc = List.replicate 16 (List.replicate 32 0) ∧ s.tap.cursor = ⟨0, 0⟩
  ramps : s.ramps.unitA = 3 ∧ s.ramps.unitB = 5 ∧ s.ramps.taps0 = List.replicate 1024 none ∧
    s.ramps.taps1 = List.replicate 1024 none ∧ s.ramps.masters = List.replicate 16 ⟨0, 0, 1, 1⟩
  gens : s.gens = List.replicate 4 ⟨.off, 1, 1, 0, .up, 0, .up, false, 1, 0⟩
  buffers : s.out.filling.values = List.replicate 16 (List.replicate 32 0) ∧
    s.out.insert.values = List.replicate 16 (List.replicate 32 0) ∧
    s.out.filling.verdicts = List.replicate 4 false ∧ s.out.insert.verdicts = List.replicate 4 false
  groups : s.out.groups =
    List.replicate 4 ⟨false, .latch, .mute, 8388608, 8, 0, false, false, .latch, .mute, false⟩
  silence : s.out.silence = List.replicate 16 false ∧ s.out.silencePending = List.replicate 16 none ∧
    s.out.silenceNext = List.replicate 16 none
  saturation : s.out.saturation = List.replicate 16 0
  copy : s.out.copy = List.replicate 16 ⟨none, none⟩
  memory : s.mem.state = .uninit ∧ s.mem.refreshCount = 8 ∧ s.mem.interval = .us78 ∧ s.mem.latency = 3
  memoryQueue : s.mem.bankTable = List.replicate 4 none ∧ s.mem.owed = 0 ∧ s.mem.timer = .stopped ∧ s.mem.queue = []

/-! ### Invariants -/

/-- The delay memory lists its bytes in canonical form, all of them in the device. -/
def MemoryCanonical (s : State) : Prop := Memory.wf s.dram = true

/-- R88, R132, R136, R163, R170: no queue, list or count passes its bound. -/
structure QueuesBounded (s : State) : Prop where
  notices : s.records.notices.length ≤ 8
  live : s.records.live.length ≤ 2
  table : s.records.table.length ≤ 2
  awaitingMute : s.records.awaitingMute.length ≤ 4
  awaitingMuteElsewhere : s.records.node ≠ .muting → s.records.awaitingMute = []
  bursts : s.mem.queue.length ≤ 16
  owed : s.mem.owed ≤ 8

/-- R93, R97, R103: the fields of a generator lie in their ranges, and its direction agrees with its counter. -/
structure GeneratorLegal (g : Generator) : Prop where
  period : 1 ≤ g.period ∧ g.period ≤ 4095
  pendingPeriod : 1 ≤ g.pendingPeriod ∧ g.pendingPeriod ≤ 4095
  counter : g.counter ≤ g.period
  compareValue : g.compareValue ≤ 4095
  postscale : 1 ≤ g.postscale ∧ g.postscale ≤ 16
  postCount : g.postCount < g.postscale
  straight : g.mode = .ramp ∨ g.mode = .single → g.dir = .up
  rising : g.mode = .triangle → g.dir = .up → g.counter < g.period
  falling : g.mode = .triangle → g.dir = .down → 0 < g.counter

/-- R109, R116, R117: the settings of a guard group and its detector count lie in their ranges. -/
structure GuardLegal (g : GuardGroup) : Prop where
  threshold : 1 ≤ g.threshold ∧ g.threshold ≤ 8388608
  limit : 1 ≤ g.limit ∧ g.limit ≤ 255
  count : g.count ≤ 255
  action : ∀ n, g.aAction = .attenuate n ∨ g.bAction = .attenuate n → 1 ≤ n ∧ n ≤ 4
  disabled : (g.aEnable = false → g.aTripped = false ∧ g.count = 0) ∧ (g.bEnable = false → g.bTripped = false)

/-- R109: there are four guard groups, each with its fields in range. -/
def GuardsLegal (s : State) : Prop := s.out.groups.length = 4 ∧ ∀ g ∈ s.out.groups, GuardLegal g

/-- Table 39, offsets 169 to 236: the generators and the guard groups in the bytes `b` of a STATUS body. -/
structure UnitsReported (s : State) (b : List Byte) : Prop where
  gens : ∀ k < 4, GeneratorLegal (s.gens.getD k Generator.reset) →
    GeneratorBytes (s.gens.getD k Generator.reset) b (169 + 10 * k)
  groups : ∀ k < 4, GuardLegal (s.out.group k) → GroupBytes (s.out.group k) b (209 + 7 * k)

/-- R93: there are four generators, each with its fields in range. -/
def GeneratorsLegal (s : State) : Prop := s.gens.length = 4 ∧ ∀ g ∈ s.gens, GeneratorLegal g

/-- A ramp that is idle at 0. -/
abbrev SilentRamp (m : Ramp) : Prop := m.p = m.len ∧ m.current = 0

/-- R87, R89, R129: there are 16 master ramps, all idle at 0 in MUTED and QUIESCENT and while a drain runs; a drain runs
in MUTING alone, and the self-refresh request is set in QUIESCENT alone. -/
structure MutedIsSilent (s : State) : Prop where
  masters : s.ramps.masters.length = 16
  silent : s.records.node = .muted ∨ s.records.node = .quiescent → ∀ m ∈ s.ramps.masters, SilentRamp m
  drain : s.records.drain ≠ none → s.records.node = .muting ∧ ∀ m ∈ s.ramps.masters, SilentRamp m
  request : s.mem.selfRefresh = true ↔ s.records.node = .quiescent

/-- R26: no two of the 16 channels hold the same output slot, in the channel table and in the block's copy of it. -/
structure SlotsDistinct (s : State) : Prop where
  channels : s.store.channels.length = 16
  table : ∀ c < 16, ∀ c' < 16, ∀ n, (s.store.channel c).slot = some n → (s.store.channel c').slot = some n → c = c'
  copy : ∀ c < 16, ∀ c' < 16, ∀ n, (s.out.copy.getD c ⟨none, none⟩).slot = some n →
    (s.out.copy.getD c' ⟨none, none⟩).slot = some n → c = c'

/-- R16 to R18, R20, R86: each bank has 1,024 entries, each within the read window; an entry has a ramp record just when
it is ACTIVE in a bank that plays; the pointer is an index. -/
structure BanksInRole (s : State) : Prop where
  entries : ∀ k, (s.store.bank k).length = 1024
  ramps : ∀ k, (s.ramps.taps k).length = 1024
  played : ∀ k i, k = s.store.active ∨ s.store.fade = true →
    (((s.ramps.taps k).getD i none).isSome = ((s.store.bank k).getD i none).isSome)
  shadow : ∀ k i, k ≠ s.store.active → s.store.fade = false → (s.ramps.taps k).getD i none = none
  window : ∀ k i e, (s.store.bank k).getD i none = some e → 64 ≤ e.delay ∧ e.delay ≤ 131103
  pointer : s.store.pointer ≤ 1023

/-- R41: the pass state is IDLE just when there is no current pass. -/
def PassMatchesState (s : State) : Prop := s.tap.pass = none ↔ s.tap.state = .idle

/-- R125, R128, R136: the refresh timer is stopped just where the memory state stops it, an expiry is held at 8 alone, and
the refreshes that SETTING still serves are among those owed. -/
structure TimerFollowsState (s : State) : Prop where
  stopped : s.mem.timer = .stopped ↔
    s.mem.state = .uninit ∨ s.mem.state = .initializing ∨ s.mem.state = .held ∨ s.mem.state = .leaving
  owed : s.mem.owed ≤ 8
  held : s.mem.timer = .expired → s.mem.owed = 8
  setting : s.mem.settingRefreshes ≤ s.mem.owed ∧ (s.mem.state ≠ .setting → s.mem.settingRefreshes = 0)

/-- R142, R147, R149, R150: the positions of the block in progress. In LOCKED the filling input block holds one row for
each position already filled, and the recorded inserted values hold as many (log 13, log 37). -/
structure BlockFills (s : State) : Prop where
  expected : s.link.expected < 32
  badRun : s.link.state = .locked → s.link.badRun ≤ 2
  timer : s.link.gapTimer = .stopped ↔ s.link.state ≠ .locked
  filling : s.link.state = .locked → s.link.lostZero = false →
    s.link.filling.length = if s.link.expected = 0 then 32 else s.link.expected
  lost : s.link.lostZero = true → s.link.state = .locked ∧ s.link.filling.length = 32
  recording : s.out.recording.length = s.link.filling.length
  complete : s.link.complete.length = 0 ∨ s.link.complete.length = 32

end Sys2Proof.Safety
end

