-- ==== Sys2Proof/Certificates/Slice0/Obligations.lean ====
section
/-! DEFINITION. The statements for the provers. -/

open Sys2Proof Sys2Proof.Machine Sys2Proof.Safety

/-! ### A step, the queue and the reset pin -/

/-- A step runs the command at the front of the queue on the rest of the queue. That it idles on an empty queue is the
model's own choice (log 1). -/
def Obligations.StepRunsTheFrontCommand : Prop :=
  (∀ (c : Instr) (rest : List Instr) (s : State), s.pending = c :: rest → step s = exec c { s with pending := rest }) ∧
  ∀ s : State, s.pending = [] → step s = .next s

/-- No command faults or is refused, and none touches the queue of waiting commands; and while the reset pin is asserted, a
command other than a power-on or the release of the pin changes nothing. -/
def Obligations.EveryCommandAnswersAndTheResetPinHolds : Prop :=
  (∀ (c : Instr) (s : State), ∃ t, exec c s = .next t ∧ t.pending = s.pending) ∧
  (∀ (c : Instr) (s : State), s.resetPin = true → (∀ p q, c ≠ .powerOn p q) → (∀ p q, c ≠ .resetPinRelease p q) →
     exec c s = .next s)

/-- Power-on and the reset pin give every block the values of Table 43; the straps are read at the end of power-on and at
the release of the pin; the DRAM holds no byte that the node had not written. That a power-on leaves the pin as it stands is
the model's own choice (log 28), and so are the field of the FRAME silence changes that wait (log 21) and the reading that it
is cleared with the flags. -/
def Obligations.PowerOnAndResetSetEveryBlock : Prop :=
  (∀ (p1 p0 : Bool) (s : State), ∃ t, exec (.powerOn p1 p0) s = .next t ∧ AtPowerOn t ∧
    t.position.val = 2 * p1.toNat + p0.toNat ∧ t.resetPin = s.resetPin ∧ t.pending = s.pending ∧
    ∀ a v, Memory.read t.dram a = some v → Memory.read s.dram a = some v) ∧
  (∀ s : State, s.resetPin = false → ∃ t, exec .resetPinAssert s = .next t ∧ AtPowerOn t ∧ t.resetPin = true ∧
    t.pending = s.pending ∧ ∀ a v, Memory.read t.dram a = some v → Memory.read s.dram a = some v) ∧
  ∀ (p1 p0 : Bool) (s : State), s.resetPin = true → ∃ t, exec (.resetPinRelease p1 p0) s = .next t ∧
    t = { s with resetPin := false, position := t.position } ∧ t.position.val = 2 * p1.toNat + p0.toNat

/-! ### The hall link -/

/-- In SEEKING, and in LOST as the arrival that sets SEEKING, a frame that is not good or not of index 0 is forwarded as
it arrived; apart from what every arrival does to the guard and the silence flags, nothing else changes. -/
def Obligations.SeekingForwardsFramesUnchanged : Prop :=
  ∀ (f : Frame) (g : Bool) (s : State), s.resetPin = false → s.link.state ≠ .locked → ¬(f.good = true ∧ f.index = 0) →
    ∃ t, exec (.frameArrival f g) s = .next t ∧ t.linkOut = some f ∧
      t = { s with link := { s.link with state := .seeking }, linkOut := some f,
                   out := (s.atArrival g).out, records := (s.atArrival g).records }

/-- The GUARD-B line is sampled at every arrival, whatever the link state and the frame: the sample is kept, an enabled
source B in BLOCK follows it, one in LATCH is set by it, and a disabled source keeps its trip state; each change queues a
GUARD notice, before any other of the arrival, which is read from the manual (log 11). A FRAME silence change takes hold at
the arrival, whatever the link state, unless the arrival is a boundary with a pending BLOCK change of its channel: that it
waits for the arrival beside such a change is the model's own choice (log 21). -/
def Obligations.GuardBIsSampledAtEveryArrival : Prop :=
  (∀ (g : Bool) (s : State), (s.atArrival g).records = (lineNotices s g).foldl Records.queueNotice s.records) ∧
  ∀ (f : Frame) (g : Bool) (s : State), s.resetPin = false → ∃ t, exec (.frameArrival f g) s = .next t ∧
    (∀ c < 16, ¬AtBoundary s f ∨ s.out.silencePending.getD c none = none →
      t.out.silence.getD c false = (s.out.silenceNext.getD c none).getD (s.out.silence.getD c false)) ∧
    t.out.silenceNext = List.replicate 16 none ∧
    t.out.guardB = g ∧ ∀ k : Fin 4, (t.out.group k.val).bTripped =
      if (s.out.group k.val).bEnable then
        (if (s.out.group k.val).bMode = .block then g else (s.out.group k.val).bTripped || g)
      else (s.out.group k.val).bTripped

/-- A good frame of index 0 relocks a link that is not LOCKED: the link takes its block number, the frame is captured as
position 0, the floor takes the number, the channel table is copied, and no pass, ramp, generator, bank or buffer changes.
Its control bytes begin the cell being received. The GUARD notices of the arrival, which is read from the manual (log 11), and
then the LINK notice join the notices queued before, and the oldest leaves the queue for the frame's cell where that is IDLE.
With an empty notice queue and no source B enabled, the LINK notice of a relock whose cell is IDLE leaves the queue at once
and rides in the control bytes of the relock frame. -/
def Obligations.RelockTakesTheFrameAsPositionZero : Prop :=
  (∀ (f : Frame) (g : Bool) (s : State), s.resetPin = false → s.link.state ≠ .locked → f.good = true → f.index = 0 →
     ∃ t, exec (.frameArrival f g) s = .next t ∧ t.link.state = .locked ∧ t.link.block = f.block ∧ t.link.badRun = 0 ∧
       t.link.expected = 1 ∧ t.link.gapTimer = .oneAndHalfPeriods ∧ t.link.filling = [f.row] ∧ t.link.complete = [] ∧
       t.link.held = f.row ∧ t.link.cellRx = some ⟨f.controlRow, false⟩ ∧ t.lines = { s.lines with floor := f.block } ∧
       (∀ c < 16, t.out.copy.getD c ⟨none, none⟩ = ⟨(s.store.channel c).slot, (s.store.channel c).group⟩) ∧
       t.out.insert = s.out.insert ∧ t.out.filling = s.out.filling ∧
       t = { s with link := t.link, linkOut := t.linkOut, lines := t.lines, out := t.out, records := t.records }) ∧
  (∀ (f : Frame) (g : Bool) (s : State), s.resetPin = false → s.link.state ≠ .locked → f.good = true → f.index = 0 →
     s.records.notices = [] → (∀ k : Fin 4, (s.out.group k.val).bEnable = false) → f.controlRow.getD 0 0 = 0 →
     ∃ t x, exec (.frameArrival f g) s = .next t ∧ t.records.notices = [] ∧ t.linkOut = some x ∧
       ∀ k < 8, x.control.getD k 0 =
         ((Notice.link false f.block s.link.block (f.block - s.link.block)).cell s.position).getD k 0) ∧
  ∀ (f : Frame) (g : Bool) (s : State), s.resetPin = false → s.link.state ≠ .locked → f.good = true → f.index = 0 →
    let q := (lineNotices s g ++ [Notice.link false f.block s.link.block (f.block - s.link.block)]).foldl
      Records.queueNotice s.records
    ∃ t, exec (.frameArrival f g) s = .next t ∧ t.records = { q with notices := t.records.notices } ∧
      (f.controlRow.getD 0 0 = 0 → t.records.notices = q.notices.drop 1 ∧
        t.link.cellTx = q.notices.head?.map fun n => n.cell s.position) ∧
      (f.controlRow.getD 0 0 ≠ 0 → t.records.notices = q.notices ∧ t.link.cellTx = none)

/-- A boundary, renumbering or not, turns the input blocks, takes the block number, copies the channel table, hands the
recorded inserted values on, exchanges the output buffers with their verdicts, sets the new filling buffer to zeros, gives
the silence flags their pending BLOCK changes, queues the notices of its blocks and takes the frame as position 0, whose
control bytes begin the cell being received. The controller goes on with the passes as the boundary leaves them. The buffer
exchanged is the filling one as it stands where no pass is current, and what its FINISHING forms where one is running; that
pass ends uncut, which clears the cut run, and waits among the ending passes for its bursts. The oldest notice then leaves
the queue for the frame's cell, where that is IDLE. The order of the notices of different blocks (log 10) and a FRAME
silence change that waits for the arrival (log 21) are the model's own choices; the block that a notice of GUARD-B carries
is read from the manual (log 11), and so is the report of such a FINISHING after the fade check (log 12), and that a fade
whose end-ready mark is set ends also at a boundary that begins no pass (log 35). That a refresh in
service when DRAINING ends is one of those that SETTING serves is the model's reading (log 18). That an AT-BLOCK swap
exactly 2^31 blocks away keeps waiting is the model's own choice (log 39). -/
def Obligations.BoundaryTurnsTheBlock : Prop :=
  (∀ (f : Frame) (g : Bool) (s : State), AtBoundary s f → ∃ t, exec (.frameArrival f g) s = .next t ∧
    t.link.state = .locked ∧ t.link.block = f.block ∧ t.link.badRun = 0 ∧ t.link.expected = 1 ∧
    t.link.gapTimer = .oneAndHalfPeriods ∧ t.link.complete = s.link.filling ∧ t.link.filling = [f.row] ∧
    t.link.held = f.row ∧ t.link.cellRx = some ⟨f.controlRow, false⟩ ∧ t.out.recorded = s.out.recording ∧
    t.out.filling = OutBuffer.zeros ∧
    (∀ c < 16, t.out.copy.getD c ⟨none, none⟩ = ⟨(s.store.channel c).slot, (s.store.channel c).group⟩) ∧
    (∀ c < 16, t.out.silence.getD c false = (s.out.silencePending.getD c none).getD
      ((s.out.silenceNext.getD c none).getD (s.out.silence.getD c false))) ∧
    t.out.silenceNext = List.replicate 16 none ∧ t.out.silencePending = List.replicate 16 none ∧
    t.dram = s.dram ∧ t.position = s.position ∧ t.resetPin = false ∧ GoesOn s.mem t) ∧
  (∀ (f : Frame) (g : Bool) (s : State), AtBoundary s f → f.block = s.link.block + 1 →
    ∃ t, exec (.frameArrival f g) s = .next t ∧
      (s.tap.pass = none → t.out.insert = s.out.filling ∧
        t.tap.ending = s.tap.ending.filter (stillEnding s.mem.queue)) ∧
      ∀ p, s.tap.pass = some p → s.tap.state = .finishing → PassCloses s t p s.tap.acc none ∧
        t.tap.cutCount = s.tap.cutCount ∧ t.tap.cutRun = 0) ∧
  ∀ (f : Frame) (g : Bool) (s : State), AtBoundary s f →
    let q := (boundaryNotices s f g).foldl Records.queueNotice s.records
    ∃ t, exec (.frameArrival f g) s = .next t ∧ t.records.overflow = q.overflow ∧
      (f.controlRow.getD 0 0 = 0 → t.records.notices = q.notices.drop 1 ∧ t.link.cellTx =
        match q.notices with
        | [] => s.link.cellTx
        | n :: _ => some (n.cell s.position)) ∧
      (f.controlRow.getD 0 0 ≠ 0 → t.records.notices = q.notices ∧ t.link.cellTx = s.link.cellTx)

/-- A boundary that does not renumber begins pass b, b being the block it closes, when the node is not QUIESCENT and the
memory is READY: the pass enters WRITING with the line map, the complete input block, the recorded values and the snapshot,
every master ramp and every tap ramp of a bank that plays steps once, and the floor is left as it stands. The snapshot holds
the counters, the gains of that step, the override modes with the LINE-MONITOR lines, the roles, the taps due, the floor,
the guard groups of the block's copy, and whether every outgoing ramp is idle. That a FINISHING running at the boundary
reports after the fade check is read from the manual (log 12). That an AT-BLOCK swap exactly 2^31 blocks away keeps waiting
is the model's own choice (log 39). -/
def Obligations.BoundaryBeginsAPass : Prop :=
  ∀ (f : Frame) (g : Bool) (s : State), AtBoundary s f → f.block = s.link.block + 1 → s.records.node ≠ .quiescent →
    s.mem.state = .ready → ∃ t p r, exec (.frameArrival f g) s = .next t ∧ RampsJudged s f.block r ∧
      t.tap.pass = some p ∧ t.tap.state = .writing ∧
      t.tap.number = s.link.block ∧ p.number = s.link.block ∧
      p.write = ⟨s.link.block, s.lines.map, s.link.filling, s.out.recording, 0⟩ ∧
      p.snapshot.counters = t.gens.map (fun x => if x.mode = .off then 0 else x.counter) ∧
      p.snapshot.active = t.store.active ∧ p.snapshot.fade = t.store.fade ∧ p.snapshot.floor = s.lines.floor ∧
      p.snapshot.masters = s.ramps.masters.map (fun m => (m.value m.p, m.value (min (m.p + 1) m.len))) ∧
      t.ramps.masters = s.ramps.masters.map (fun m => { m with p := min (m.p + 1) m.len }) ∧ t.lines = s.lines ∧
      p.snapshot.gains0 = (if t.store.active = 0 ∨ t.store.fade = true then
        r.taps0.map (Option.map fun m => (m.value m.p, m.value (min (m.p + 1) m.len))) else []) ∧
      p.snapshot.gains1 = (if t.store.active = 1 ∨ t.store.fade = true then
        r.taps1.map (Option.map fun m => (m.value m.p, m.value (min (m.p + 1) m.len))) else []) ∧
      t.ramps = { r with
        taps0 := if t.store.active = 0 ∨ t.store.fade = true then
          r.taps0.map (Option.map fun m => { m with p := min (m.p + 1) m.len }) else r.taps0
        taps1 := if t.store.active = 1 ∨ t.store.fade = true then
          r.taps1.map (Option.map fun m => { m with p := min (m.p + 1) m.len }) else r.taps1
        masters := t.ramps.masters } ∧
      (∀ c < 16, p.snapshot.overrides.getD c .follow = (s.store.channel c).override ∧
        p.snapshot.monitors.getD c none =
          (if (s.store.channel c).override = .lineMonitor then some (s.store.channel c).monitorLine else none) ∧
        p.snapshot.groups.getD c none = (s.store.channel c).group) ∧
      p.snapshot.due = (t.store.bank t.store.active).countP Option.isSome +
        (if t.store.fade = true then (t.store.bank (otherBank t.store.active)).countP Option.isSome else 0) ∧
      (p.snapshot.outgoingIdle = true ↔ t.store.fade = true ∧
        ∀ m, some m ∈ t.ramps.taps (otherBank t.store.active) → m.p = m.len) ∧
      p.monitors = (List.finRange 16).filterMap (fun c => (p.snapshot.monitors.getD c.val none).map fun l => ⟨c, l, 0, []⟩) ∧
      p.reads = [] ∧ p.served = 0 ∧ p.done = 0

/-- A boundary that renumbers, or finds the node QUIESCENT or the memory not READY, begins no pass: no ramp steps, the
current cut run is cleared, and the floor is set to the block it begins. A renumber moreover abandons the pass in flight:
both output buffers are zeros with CLEAR verdicts, the cut is not counted, and the pass waits among the ending passes for
its bursts. That a fade whose end-ready mark is set ends at such a boundary (log 35), that a FINISHING running there reports
after the fade check (log 12), and that every ending pass loses its write stage at a renumber (log 19), is the model's
reading. That an AT-BLOCK swap exactly 2^31 blocks away keeps waiting is the model's own choice (log 39). -/
def Obligations.BoundaryBeginsNoPass : Prop :=
  (∀ (f : Frame) (g : Bool) (s : State), AtBoundary s f → PassMatchesState s →
     (f.block ≠ s.link.block + 1 ∨ s.records.node = .quiescent ∨ s.mem.state ≠ .ready) →
     ∃ t, exec (.frameArrival f g) s = .next t ∧ t.tap.pass = none ∧ t.tap.state = .idle ∧ t.tap.cutRun = 0 ∧
       t.lines = { s.lines with floor := f.block } ∧ t.ramps.masters = s.ramps.masters ∧ RampsJudged s f.block t.ramps) ∧
  (∀ (f : Frame) (g : Bool) (s : State), AtBoundary s f → f.block ≠ s.link.block + 1 →
     ∃ t, exec (.frameArrival f g) s = .next t ∧ t.tap.pass = none ∧ t.out.insert = OutBuffer.zeros ∧
       t.out.filling = OutBuffer.zeros ∧ t.tap.cutCount = s.tap.cutCount ∧ t.tap.cutRun = 0 ∧ t.link.block = f.block ∧
       t.tap.ending = (abandonedPasses s).filter (stillEnding s.mem.queue) ∧
       t.lines = { s.lines with floor := f.block } ∧ RampsJudged s f.block t.ramps)

/-- A boundary cuts a pass that is WRITING or TAPPING: the cut is counted, in the current cut run too where a pass begins
there, a run's first cut is among those that queue a CUT notice, and the insert buffer holds what FINISHING forms from the
accumulators as they stand, or from empty ones for a pass cut in WRITING, with the verdicts of its detectors. That FINISHING
counts saturation, updates the groups and reports the fade as any other, the report coming after the fade check (log 12). A
fade whose end-ready mark is set ends there also where the boundary begins no pass, by the model's reading (log 35). The
pass waits among the ending passes until its bursts are served, one cut in WRITING with its write stage and the count of
bursts handed over. That an AT-BLOCK swap exactly 2^31 blocks away keeps waiting is the model's own choice (log 39). -/
def Obligations.BoundaryCutsTheRunningPass : Prop :=
  ∀ (f : Frame) (g : Bool) (s : State) (p : Pass), AtBoundary s f → f.block = s.link.block + 1 → s.tap.pass = some p →
    s.tap.state = .writing ∨ s.tap.state = .tapping →
    let acc := if s.tap.state = .writing then List.replicate 16 (List.replicate 32 0) else s.tap.acc
    (s.tap.cutRun = 0 → Notice.cut (p.number + 2) p.done p.snapshot.due ∈ boundaryNotices s f g) ∧
    ∃ t, exec (.frameArrival f g) s = .next t ∧ t.tap.cutCount = countUp s.tap.cutCount 1 ∧
      t.tap.cutRun = (if s.records.node ≠ .quiescent ∧ s.mem.state = .ready then countUp s.tap.cutRun 1 else 0) ∧
      PassCloses s t p acc (if s.tap.state = .writing then some p.write else none)

/-- A good frame in LOCKED that begins no block fills its position: its slots are captured and held, its index and number
leave as they came, its check holds as it leaves, each slot leaves as Table 31 gives it and is recorded so for return lines,
and the control bytes leave as they came or as the node's own notice cell has them. As they came, they join the cell being
received, up to position 31, which hands it over. The link stays LOCKED in its block, and the frame-gap timer restarts with
1.5 frame periods. At the relock frame and at a boundary the frame leaves so as position 0. After a lost frame 0 such a
frame is not captured, which is the model's own choice (log 13). -/
def Obligations.GoodPositionIsCapturedAndForwarded : Prop :=
  (∀ (f : Frame) (g : Bool) (s : State), GoodInBlock s f → SlotsDistinct s →
    ∃ t x row, exec (.frameArrival f g) s = .next t ∧ t.linkOut = some x ∧
      t.link.filling = (if s.link.lostZero = true then s.link.filling else s.link.filling ++ [f.row]) ∧
      t.link.held = f.row ∧ t.link.badRun = 0 ∧ t.link.expected = (s.link.expected + 1) % 32 ∧
      t.link.state = .locked ∧ t.link.block = s.link.block ∧ t.link.gapTimer = .oneAndHalfPeriods ∧
      t.link.cellRx = (if s.link.expected = 31 then none
        else s.link.cellRx.map fun c => ⟨c.bytes ++ f.controlRow, c.bad⟩) ∧
      x.index = f.index ∧ x.block = f.block ∧ x.flags = f.flags ∧ x.checkHolds = true ∧
      LeavesAs s.records.node s.link.lostZero t.out s.link.cellTx s.link.expected f x row ∧
      t.out.recording = (if s.link.lostZero = true then s.out.recording.set s.link.expected row
        else s.out.recording ++ [row]) ∧
      (s.link.expected ≠ 31 → t.records = (s.atArrival g).records) ∧
      t = { s with link := t.link, linkOut := t.linkOut, out := t.out, records := t.records }) ∧
  ∀ (f : Frame) (g : Bool) (s : State), SlotsDistinct s →
    AtBoundary s f ∨ (s.resetPin = false ∧ s.link.state ≠ .locked ∧ f.good = true ∧ f.index = 0) →
    ∃ t x row, exec (.frameArrival f g) s = .next t ∧ t.linkOut = some x ∧ t.out.recording = [row] ∧
      x.index = f.index ∧ x.block = f.block ∧ x.flags = f.flags ∧ x.checkHolds = true ∧
      LeavesAs t.records.node false t.out t.link.cellTx 0 f x row

/-- A damaged position that does not lose the link: it is counted, the held values fill its place, it is forwarded with
its damaged mark set, its index and number as they came, and its check holds if anything in it changed; the values of
Table 31 are inserted and recorded. The cell being received is marked bad, up to position 31, which hands it over, and the
frame-gap timer restarts with 1.5 frame periods. At a lost frame 0 the held values take position 0 of the filling input
block, whose positions are filled; after it nothing is captured, and 0 is inserted and recorded. That the values of such a
position are recorded in the place of the position is the model's reading (log 13). -/
def Obligations.DamagedPositionRepeatsTheHeldValues : Prop :=
  ∀ (f : Frame) (g : Bool) (s : State), s.resetPin = false → s.link.state = .locked → Damaged s.link f →
    s.link.badRun < 2 →
    ∃ t x row, exec (.frameArrival f g) s = .next t ∧ t.linkOut = some x ∧
      t.link.damagedFrames = countUp s.link.damagedFrames 1 ∧ t.link.badRun = s.link.badRun + 1 ∧
      t.link.expected = (s.link.expected + 1) % 32 ∧ t.link.held = s.link.held ∧ t.link.state = .locked ∧
      t.link.block = s.link.block ∧ t.link.gapTimer = .oneAndHalfPeriods ∧
      t.link.cellRx = (if s.link.expected = 31 then none else if s.link.expected = 0 then some ⟨f.controlRow, true⟩
        else s.link.cellRx.map fun c => ⟨c.bytes ++ f.controlRow, true⟩) ∧
      t.link.filling = (if s.link.expected = 0 then s.link.filling.set 0 s.link.held
        else if s.link.lostZero = true then s.link.filling else s.link.filling ++ [s.link.held]) ∧
      x.flags = f.flags ||| 1 ∧ x.index = f.index ∧ x.block = f.block ∧ (x ≠ f → x.checkHolds = true) ∧
      (SlotsDistinct s → LeavesAs s.records.node s.link.lostZero t.out s.link.cellTx s.link.expected f x row) ∧
      (s.link.lostZero = true → ∀ c < 16, row.getD c 0 = 0) ∧
      t.out.recording = (if s.link.lostZero = true ∨ s.link.expected = 0 then s.out.recording.set s.link.expected row
        else s.out.recording ++ [row]) ∧
      t.tap = s.tap ∧ t.lines = s.lines ∧ t.gens = s.gens ∧ t.store = s.store ∧ t.ramps = s.ramps ∧
      t.mem = s.mem ∧ t.dram = s.dram

/-- An expiry of the frame-gap timer fills a missing position: it is counted, the held values fill its place, 0 is recorded
for every channel, nothing is forwarded, the timer restarts with one frame period, and the cell being received is marked
bad, up to position 31, which hands it over. At a lost frame 0 the held values take position 0 of the filling input block,
whose positions are filled, and after it nothing is captured; at it and after it the zeros are recorded in the place of the
position, which is the model's reading (log 13). Outside LOCKED the timer does not run, and that its expiry then changes
nothing is the model's own choice (log 2). -/
def Obligations.GapExpiryFillsAMissingPosition : Prop :=
  (∀ s : State, s.resetPin = false → s.link.state = .locked → s.link.badRun < 2 →
    ∃ t, exec .frameGapExpiry s = .next t ∧ t.linkOut = none ∧ t.link.missingFrames = countUp s.link.missingFrames 1 ∧
      t.link.badRun = s.link.badRun + 1 ∧ t.link.expected = (s.link.expected + 1) % 32 ∧ t.link.held = s.link.held ∧
      t.link.gapTimer = .onePeriod ∧ t.link.state = .locked ∧ t.link.block = s.link.block ∧
      t.link.cellRx.map CellRx.bad = (if s.link.expected = 31 then none else if s.link.expected = 0 then some true
        else s.link.cellRx.map fun _ => true) ∧
      t.link.filling = (if s.link.expected = 0 then s.link.filling.set 0 s.link.held
        else if s.link.lostZero = true then s.link.filling else s.link.filling ++ [s.link.held]) ∧
      t.out.recording = (if s.link.lostZero = true ∨ s.link.expected = 0 then
        s.out.recording.set s.link.expected (List.replicate 16 0) else s.out.recording ++ [List.replicate 16 0]) ∧
      t = { s with link := t.link, linkOut := none, out := { s.out with recording := t.out.recording },
                   records := t.records }) ∧
  ∀ s : State, s.link.state ≠ .locked → exec .frameGapExpiry s = .next s

/-- The third bad position in a row loses the link, by a damaged frame or by an expiry of the frame-gap timer: the frame is
not forwarded, the input blocks and the cells are discarded, the loss and the lost cell are counted, the pass is abandoned,
with its accumulators and the current cut run cleared and the pass state IDLE, both buffers are zeros; the held values, the
block number, the banks, the ramps and the generators are kept. The abandoned pass waits among the ending passes for its
bursts, and the controller goes on. That the lost cell is counted at positions 0 and 31 too (log 14), and that the write
stages of every ending pass are dropped too, from R44 and R57 (log 19), is the model's reading. That a refresh in service
when DRAINING ends is one of those that SETTING serves is the model's reading (log 18). -/
def Obligations.ThirdBadPositionLosesTheLink : Prop :=
  (∀ (f : Frame) (g : Bool) (s : State), s.resetPin = false → s.link.state = .locked → s.link.badRun = 2 →
    Damaged s.link f → ∃ t, exec (.frameArrival f g) s = .next t ∧ LinkLost s t ∧
      t.link.damagedFrames = countUp s.link.damagedFrames 1 ∧ t.link.missingFrames = s.link.missingFrames) ∧
  ∀ s : State, s.resetPin = false → s.link.state = .locked → s.link.badRun = 2 →
    ∃ t, exec .frameGapExpiry s = .next t ∧ LinkLost s t ∧
      t.link.missingFrames = countUp s.link.missingFrames 1 ∧ t.link.damagedFrames = s.link.damagedFrames

/-! ### Cells, records and notices -/

/-- At position 31 the cell being received is handed over: the record engine takes an undamaged one, and a damaged one
is counted and reaches nothing, as one is whose position 31 is itself damaged or missing. -/
def Obligations.CompleteCellReachesTheRecordEngine : Prop :=
  (∀ (f : Frame) (g : Bool) (s : State) (c : CellRx), s.resetPin = false → s.link.state = .locked → s.link.expected = 31 →
    ¬Damaged s.link f → s.link.cellRx = some c →
    ∃ t, exec (.frameArrival f g) s = .next t ∧ t.link.cellRx = none ∧ t.link.cellTx = none ∧ t.link.expected = 0 ∧
      (c.bad = false ∧ cellCheckHolds (c.bytes ++ f.controlRow) = true →
        t.records = ((s.atArrival g).takeCell (c.bytes ++ f.controlRow)).records ∧
        t.link.damagedCells = s.link.damagedCells) ∧
      (c.bad = true ∨ cellCheckHolds (c.bytes ++ f.controlRow) = false →
        t.records = (s.atArrival g).records ∧ t.link.damagedCells = countUp s.link.damagedCells 1)) ∧
  ∀ (s : State) (c : CellRx), s.resetPin = false → s.link.state = .locked → s.link.expected = 31 → s.link.badRun < 2 →
    s.link.cellRx = some c →
    (∀ (f : Frame) (g : Bool), Damaged s.link f → ∃ t, exec (.frameArrival f g) s = .next t ∧ t.link.cellRx = none ∧
      t.link.cellTx = none ∧ t.link.expected = 0 ∧ t.records = (s.atArrival g).records ∧
      t.link.damagedCells = countUp s.link.damagedCells 1) ∧
    ∃ t, exec .frameGapExpiry s = .next t ∧ t.link.cellRx = none ∧ t.link.cellTx = none ∧ t.link.expected = 0 ∧
      t.records = s.records ∧ t.link.damagedCells = countUp s.link.damagedCells 1

/-- A cell that is not a COMMAND cell naming this node is ignored; one that is, is taken as a fragment. A fragment 0 with a
sound header abandons an assembly in progress as TRUNCATED and then completes a record, overruns it, or begins an
assembly. A continuation that fits is appended, and completes its record, overruns it or leaves the assembly waiting; one
that does not fit abandons the assembly; without an assembly it is ignored. A fragment without usable content abandons, and
is refused if its index is 0; so is a fragment 0 whose header is incomplete, names no operation, or has a total length out of
range. A refusal queues a MALFORMED completion with the fragment's index. -/
def Obligations.FragmentsAreAssembled : Prop :=
  ((∀ (b : List Byte) (s : State), s.takeCell b =
     if b.getD 0 0 = 0x01 ∧ (b.getD 1 0).getLsbD s.position.val = true then s.takeFragment (fragmentOf b) else s) ∧
   (∀ (s : State) (a : Assembly), s.records.assembly = some a → s.abandonAssembly =
     s.withRecords ({ s.records with assembly := none }.queueNotice
       (.completion a.tag a.op.code .truncated { first := a.next } s.noticeBlock))) ∧
   (∀ s : State, s.records.assembly = none → s.abandonAssembly = s) ∧
   ∀ (s : State) (g : Fragment) (op : Op), g.index = 0 → 4 ≤ g.count → g.count ≤ 246 → g.payload.length = 246 →
     opOf (g.payload.getD 0 0) = some op → 4 ≤ field2 g.payload 2 → field2 g.payload 2 ≤ 16400 →
     s.takeFragment g =
       if g.count = field2 g.payload 2 then
         s.abandonAssembly.enqueue ⟨g.tag, op, (g.payload.getD 1 0).getLsbD 0, (g.payload.take g.count).drop 4⟩
       else if g.count < field2 g.payload 2 ∧ g.last = false then
         s.abandonAssembly.withAssembly
           (some ⟨g.tag, op, (g.payload.getD 1 0).getLsbD 0, field2 g.payload 2, g.payload.take g.count, 1⟩)
       else s.abandonAssembly.refuseRecord g.tag op.code 0) ∧
  ((∀ (s : State) (g : Fragment) (a : Assembly), s.records.assembly = some a → 0 < g.index → 0 < g.count → g.count ≤ 246 →
     g.payload.length = 246 →
     s.takeFragment g =
       if g.tag = a.tag ∧ g.index = a.next then
         if a.bytes.length + g.count = a.total then
           (s.withAssembly none).enqueue ⟨a.tag, a.op, a.notify, (a.bytes ++ g.payload.take g.count).drop 4⟩
         else if a.bytes.length + g.count < a.total ∧ g.last = false then
           s.withAssembly (some { a with bytes := a.bytes ++ g.payload.take g.count, next := a.next + 1 })
         else (s.withAssembly none).refuseRecord a.tag a.op.code g.index
       else s.abandonAssembly) ∧
   (∀ (s : State) (g : Fragment), s.records.assembly = none → 0 < g.index → s.takeFragment g = s) ∧
   ∀ (s : State) (g : Fragment), g.count = 0 ∨ 246 < g.count → s.takeFragment g =
     if g.index = 0 then s.abandonAssembly.refuseRecord g.tag (g.payload.getD 0 0) 0 else s.abandonAssembly) ∧
  (∀ (s : State) (g : Fragment), g.index = 0 → 0 < g.count → g.count ≤ 246 → g.payload.length = 246 →
     g.count < 4 ∨ opOf (g.payload.getD 0 0) = none ∨ field2 g.payload 2 < 4 ∨ 16400 < field2 g.payload 2 →
     s.takeFragment g = s.abandonAssembly.refuseRecord g.tag (g.payload.getD 0 0) 0) ∧
  ∀ (s : State) (tag : Half) (code : Byte) (first : Nat), s.refuseRecord tag code first =
    s.withRecords (s.records.queueNotice (.completion tag code .malformed { first := first } s.noticeBlock))

/-- A complete record joins the tail of its class queue, or is refused with BUSY when the queue holds two. A notice joins
the tail of the notice queue, or is dropped and sets the overflow flag when the queue holds eight. A completion queues a
notice unless it is a DONE whose notify flag is clear. The cell of a notice has 256 bytes and a check that holds; it is a
NOTICE of this position with the tag, the kind and the body of Tables 37 and 38, and the outcomes have the codes of Table
40. That a complete RESTART waits for its own step is the model's own choice (log 4). -/
def Obligations.RecordsAndNoticesJoinTheirQueues : Prop :=
  (∀ (s : State) (r : Record), s.enqueue r = s.withRecords
    (if r.op = .restart then { s.records with restarts := s.records.restarts ++ [r] }
     else if r.op.isTable = true then
       if s.records.table.length < 2 then { s.records with table := s.records.table ++ [r] }
       else s.records.complete s.noticeBlock r.tag r.op r.notify .busy {}
     else if s.records.live.length < 2 then { s.records with live := s.records.live ++ [r] }
     else s.records.complete s.noticeBlock r.tag r.op r.notify .busy {})) ∧
  (∀ (q : Records) (n : Notice), q.queueNotice n =
    if q.notices.length < 8 then { q with notices := q.notices ++ [n] } else { q with overflow := true }) ∧
  (∀ (q : Records) (b : Block) (tag : Half) (op : Op) (notify : Bool) (o : RecordOutcome) (c : Counts),
    q.complete b tag op notify o c =
      if o = .done ∧ notify = false then q else q.queueNotice (.completion tag op.code o c b)) ∧
  (∀ (n : Notice) (p : Fin 4), (n.cell p).length = 256 ∧ cellCheckHolds (n.cell p) = true ∧ byteAt (n.cell p) 0 = 2 ∧
    byteAt (n.cell p) 1 = p.val ∧ CellSays (n.cell p) n) ∧
  [RecordOutcome.done, .doneWithClamps, .late, .busy, .malformed, .order, .truncated, .clipped, .cancelled].map
    RecordOutcome.code = [0, 1, 2, 3, 4, 5, 6, 7, 8]

/-! ### Bursts -/

/-- The tap engine hands over the next write burst: of the oldest ending pass that has one left, or else of the current pass
in WRITING. The burst is the fourth part of a line block its count of bursts handed over gives, with the values of Table 5.
It joins the tail of the queue, and a free controller begins its next service: the oldest burst, or a refresh where eight
are owed. A burst request changes nothing while the queue accepts none: when the memory is in a state or phase that serves
no burst, or the queue holds 16; and when the tap engine has no burst ready (log 2). -/
def Obligations.BurstRequestHandsOverAWrite : Prop :=
  ((∀ (s : State) (p : Pass), s.resetPin = false → s.mem.accepts = true → (∀ e ∈ s.tap.ending, e.writesLeft = false) →
     s.tap.pass = some p → s.tap.state = .writing → p.write.handed < 256 →
     ∃ t q, exec .burstRequest s = .next t ∧ Joins s t q ∧ IsWriteBurst q p.write p.serial ∧
       t.tap = { s.tap with pass := some { p with write := { p.write with handed := p.write.handed + 1 } } } ∧
       t = { s with tap := t.tap, mem := t.mem }) ∧
   (∀ (s : State) (older younger : List EndingPass) (e : EndingPass) (w : WriteStage), s.resetPin = false →
     s.mem.accepts = true → s.tap.ending = older ++ e :: younger → (∀ x ∈ older, x.writesLeft = false) →
     e.write = some w → w.handed < 256 →
     ∃ t q, exec .burstRequest s = .next t ∧ Joins s t q ∧ IsWriteBurst q w e.serial ∧
       t.tap = { s.tap with ending := older ++ { e with write := some { w with handed := w.handed + 1 } } :: younger } ∧
       t = { s with tap := t.tap, mem := t.mem }) ∧
   ∀ (w : WriteStage) (line j : Nat), w.value line j =
     match w.map.getD line .none with
     | .none => 0
     | .ring n => (w.input.getD j []).getD n.val 0
     | .return c => (w.inserted.getD j []).getD c.val 0) ∧
  ((∀ s : State, (s.mem.state ≠ .ready ∧ s.mem.state ≠ .draining ∧ s.mem.state ≠ .entering) ∨ 16 ≤ s.mem.queue.length →
     exec .burstRequest s = .next s) ∧
   ∀ s : State, (∀ e ∈ s.tap.ending, e.writesLeft = false) → (s.tap.pass = none ∨ s.tap.state = .idle ∨
     s.tap.state = .finishing) → exec .burstRequest s = .next s)

/-- In TAPPING the tap engine hands over, in this order, the four bursts of each LINE-MONITOR channel, the five bursts of
the tap under way, and the first burst of the next ACTIVE entry from the cursor on. The burst joins the tail of the queue, and
a free controller begins its next service. Where the cursor stands after the last
entry is the model's own choice (log 31). -/
def Obligations.BurstRequestHandsOverARead : Prop :=
  ∀ (s : State) (p : Pass), s.resetPin = false → s.mem.accepts = true → (∀ e ∈ s.tap.ending, e.writesLeft = false) →
    s.tap.pass = some p → s.tap.state = .tapping →
    (∀ (done rest : List MonitorRead) (m : MonitorRead), p.monitors = done ++ m :: rest → (∀ x ∈ done, 4 ≤ x.handed) →
      m.handed < 4 → ∃ t q, exec .burstRequest s = .next t ∧ Joins s t q ∧ q.kind = .read ∧
        q.line = m.line ∧ q.position.val = (32 * p.number.toNat + 8 * m.handed) % 131072 ∧ q.part = .monitor m.channel ∧
        q.number = p.number ∧ q.serial = p.serial ∧
        t.tap = { s.tap with pass := some { p with monitors := done ++ { m with handed := m.handed + 1 } :: rest } } ∧
        t = { s with tap := t.tap, mem := t.mem }) ∧
    ((∀ x ∈ p.monitors, 4 ≤ x.handed) →
      (∀ (done rest : List TapRead) (r : TapRead), p.reads = done ++ r :: rest → (∀ x ∈ done, 5 ≤ x.handed) →
        r.handed < 5 → ∃ t q, exec .burstRequest s = .next t ∧ Joins s t q ∧ IsTapBurst q p r ∧
          t.tap = { s.tap with pass := some { p with reads := done ++ { r with handed := r.handed + 1 } :: rest } } ∧
          t = { s with tap := t.tap, mem := t.mem }) ∧
      ((∀ x ∈ p.reads, 5 ≤ x.handed) → ∀ (k : BankNo) (i : Nat) (e : TapEntry), IsNextTap s p k i e →
        ∃ t q r, exec .burstRequest s = .next t ∧ Joins s t q ∧ IsTapBurst q p r ∧
          r.bank = k ∧ r.index = i ∧ r.channel = e.channel ∧ r.line = e.line ∧ r.handed = 0 ∧ r.words = [] ∧
          256 * r.delay + r.fraction = effectiveDelay e (counterFor p.snapshot.counters e.gen) ∧ r.fraction < 256 ∧
          t.tap = { s.tap with pass := some { p with reads := p.reads ++ [{ r with handed := 1 }] },
                               cursor := cursorAfter p.snapshot k i } ∧
          t = { s with tap := t.tap, mem := t.mem }))

/-- The end of a write burst's service: its eight values stand in its eight words, sign-extended, every other byte of the
device is as before, the burst leaves the queue with its row open, the controller goes on, and the passes that waited for
that burst alone have given their end. The bytes of a word and the moment of the access are the model's own choices (log 7,
log 16). That a refresh in service when DRAINING ends is one of those SETTING serves is the model's reading (log 18). -/
def Obligations.WriteBurstStoresItsWords : Prop :=
  ∀ (s : State) (q : BurstRequest) (values : List Sample), Serving s q → q.kind = .write values →
    ∃ t, exec .burstServiceEnd s = .next t ∧ BurstEnds s t q ∧
      (∀ i < 8, dramWord s.powerCycle t.dram (burstWord q.line q.position i) = (values.getD i 0).signExtend 32) ∧
      (∀ a, (∀ i < 8, a / 4 ≠ burstWord q.line q.position i) → Memory.read t.dram a = Memory.read s.dram a) ∧
      t = { s with tap := t.tap, mem := t.mem, dram := t.dram }

/-- The write burst of the current pass that is the last of its 256 to be served takes the pass from WRITING to TAPPING,
with cleared accumulators and the cursor at index 0 of the ACTIVE bank; a pass with no tap due and no LINE-MONITOR channel
goes on to FINISHING. An earlier one is counted. That a refresh in service when DRAINING ends is one of those that SETTING
serves is the model's reading (log 18). -/
def Obligations.LastWriteBurstBeginsTapping : Prop :=
  ∀ (s : State) (q : BurstRequest) (values : List Sample) (p : Pass), Serving s q → q.kind = .write values →
    s.tap.state = .writing → s.tap.pass = some p → p.serial = q.serial →
    ∃ t, exec .burstServiceEnd s = .next t ∧ BurstEnds s t q ∧ t.tap.pass = some { p with served := p.served + 1 } ∧
      (p.served = 255 → t.tap.acc = List.replicate 16 (List.replicate 32 0) ∧ t.tap.cursor = ⟨p.snapshot.active, 0⟩ ∧
        t.tap.state = if p.done = p.snapshot.due ∧ ∀ m ∈ p.monitors, 32 ≤ m.words.length then .finishing else .tapping) ∧
      (p.served ≠ 255 → t.tap.state = .writing ∧ t.tap.acc = s.tap.acc ∧ t.tap.cursor = s.tap.cursor)

/-- The fifth burst of a tap's read adds the tap's 32 products into its channel's accumulators, and the tap counts as done
and its read is over; the pass enters FINISHING when that was the last tap due and no LINE-MONITOR read is outstanding. An
earlier burst adds nothing. A burst of a LINE-MONITOR read gives its words to its channel and adds nothing; the last of them
ends the tap stage where no tap is due any more. A read of a pass that is not tapping is discarded. Each leaves the queue
and the controller goes on. That a refresh in service when DRAINING ends is one of those that SETTING serves is the model's
reading (log 18). -/
def Obligations.FifthBurstMakesATapContribute : Prop :=
  (∀ (s : State) (q : BurstRequest) (p : Pass) (r : TapRead) (rest : List TapRead), Serving s q → q.kind = .read →
    q.part = .tap r.bank r.index → s.tap.state = .tapping → s.tap.pass = some p → p.serial = q.serial →
    p.reads = r :: rest → s.tap.acc.length = 16 → r.words.length = 32 →
    ∃ t, exec .burstServiceEnd s = .next t ∧ t.tap.pass = some { p with reads := rest, done := p.done + 1 } ∧
      t.tap = { s.tap with pass := t.tap.pass, acc := t.tap.acc, state := t.tap.state, ending := t.tap.ending } ∧
      (∀ c j, j < 32 → (t.tap.acc.getD c []).getD j 0 = if c = r.channel.val then (s.tap.acc.getD c []).getD j 0 +
          BitVec.ofInt 56 (tapProduct p.number p.snapshot.floor r.delay r.fraction (p.snapshot.gains r.bank r.index)
            (r.words ++ readBurst s.powerCycle s.dram q.line q.position) j)
        else (s.tap.acc.getD c []).getD j 0) ∧
      t.tap.state = (if p.done + 1 = p.snapshot.due ∧ (∀ m ∈ p.monitors, 32 ≤ m.words.length) then .finishing else .tapping) ∧
      BurstEnds s t q ∧ t = { s with tap := t.tap, mem := t.mem }) ∧
  (∀ (s : State) (q : BurstRequest) (p : Pass) (r : TapRead) (rest : List TapRead), Serving s q → q.kind = .read →
    q.part = .tap r.bank r.index → s.tap.state = .tapping → s.tap.pass = some p → p.serial = q.serial →
    p.reads = r :: rest → r.words.length < 32 →
    ∃ t, exec .burstServiceEnd s = .next t ∧ t.tap.acc = s.tap.acc ∧ BurstEnds s t q ∧
      t.tap.pass = some { p with
        reads := { r with words := r.words ++ readBurst s.powerCycle s.dram q.line q.position } :: rest } ∧
      t = { s with tap := t.tap, mem := t.mem }) ∧
  (∀ (s : State) (q : BurstRequest) (p : Pass) (c : Fin 16), Serving s q → q.kind = .read → q.part = .monitor c →
    s.tap.state = .tapping → s.tap.pass = some p → p.serial = q.serial →
    let monitors := p.monitors.map fun m =>
      if m.channel = c then { m with words := m.words ++ readBurst s.powerCycle s.dram q.line q.position } else m
    ∃ t, exec .burstServiceEnd s = .next t ∧ t.tap.pass = some { p with monitors := monitors } ∧ t.tap.acc = s.tap.acc ∧
      t.tap.state = (if p.done = p.snapshot.due ∧ (∀ m ∈ monitors, 32 ≤ m.words.length) then .finishing else .tapping) ∧
      BurstEnds s t q ∧ t = { s with tap := t.tap, mem := t.mem }) ∧
  ∀ (s : State) (q : BurstRequest), Serving s q → q.kind = .read →
    (s.tap.state ≠ .tapping ∨ ∀ p, s.tap.pass = some p → p.serial ≠ q.serial) →
    ∃ t, exec .burstServiceEnd s = .next t ∧ t.tap = { s.tap with ending := t.tap.ending } ∧
      BurstEnds s t q ∧ t = { s with tap := t.tap, mem := t.mem }

/-! ### FINISHING and arithmetic -/

/-- FINISHING of the current pass: the filling buffer holds the pass's values and the verdicts of the four groups, the
saturation counters and the detectors are updated, the accumulators are cleared, the pass ends and the current cut run is
cleared; each change of a trip state queues a GUARD notice. The pass gives its end where its bursts are served, and the
controller goes on. Out of FINISHING the command changes nothing, which is the model's own choice (log 2). The detector of
an enabled source A: the count, and the trip state in LATCH and in BLOCK; that of a disabled one changes nothing. The group
peak is the largest magnitude of the group's channels, 0 without one. That a refresh in service when DRAINING ends is one of
those that SETTING serves is the model's reading (log 18). -/
def Obligations.FinishingFormsTheOutputBlock : Prop :=
  ((∀ (s : State) (p : Pass), s.resetPin = false → s.tap.state = .finishing → s.tap.pass = some p →
     ∃ t, exec .finishingComplete s = .next t ∧ t.tap.state = .idle ∧ t.tap.pass = none ∧ t.tap.cutRun = 0 ∧
       t.tap.cutCount = s.tap.cutCount ∧ t.tap.acc = List.replicate 16 (List.replicate 32 0) ∧
       t.out.filling.values = p.values s.tap.acc ∧ t.out.insert = s.out.insert ∧
       (∀ k : Fin 4, t.out.group k.val = (s.out.group k.val).detect (groupPeak p.snapshot.groups (p.values s.tap.acc) k) ∧
         t.out.filling.verdicts.getD k.val false =
           ((s.out.group k.val).aEnable && (t.out.group k.val).aTripped)) ∧
       (∀ c < 16, t.out.saturation.getD c 0 = countUp (s.out.saturation.getD c 0)
         ((List.range 32).filter fun j => saturates (p.value s.tap.acc c j)).length) ∧
       t.store = { s.store with endReady :=
         s.store.endReady || (s.store.fade && p.snapshot.fade && p.snapshot.outgoingIdle) } ∧
       t.records = (detectorNotices s.out p s.tap.acc).foldl Records.queueNotice s.records ∧
       t.tap.ending = (s.tap.ending ++ [(⟨p.number, p.serial, none⟩ : EndingPass)]).filter (stillEnding s.mem.queue) ∧
       GoesOn s.mem t ∧
       t = { s with tap := t.tap, out := t.out, store := t.store, mem := t.mem, records := t.records }) ∧
   ∀ s : State, s.tap.state ≠ .finishing → exec .finishingComplete s = .next s) ∧
  (∀ (g : GuardGroup) (peak : Nat),
     (g.aEnable = false → g.detect peak = g) ∧
     (g.aEnable = true →
       (g.detect peak).count = (if g.threshold ≤ peak then min 255 (g.count + 1) else 0) ∧
       (g.aMode = .latch → ((g.detect peak).aTripped = true ↔ g.aTripped = true ∨ g.limit ≤ (g.detect peak).count)) ∧
       (g.aMode = .block → ((g.detect peak).aTripped = true ↔ g.limit ≤ (g.detect peak).count)) ∧
       g.detect peak = { g with count := (g.detect peak).count, aTripped := (g.detect peak).aTripped })) ∧
  ∀ (groups : List (Option (Fin 4))) (values : List (List Sample)) (k : Fin 4),
    (∀ c < 16, groups.getD c none = some k → ∀ x ∈ values.getD c [], x.toInt.natAbs ≤ groupPeak groups values k) ∧
    (groupPeak groups values k = 0 ∨ ∃ c < 16, groups.getD c none = some k ∧
      ∃ x ∈ values.getD c [], x.toInt.natAbs = groupPeak groups values k)

/-- The delay of a tap is the base delay, its fraction and the variation offset, clamped to 64 + 0/256 .. 131,103 + 255/256.
The interpolated value and the interpolated gain lie between their ends, the last gain is the block-end gain, a
product has at most 2^38 in size, and an output value is the channel value limited to the sample range. A sample before the
history floor is 0; a tap takes its 33 words from its oldest time on, and its product is that of the interpolation of two
neighbours with the gain. A LINE-MONITOR channel takes its sum from its read, 0 where not all its words have returned. The
inserted value is the buffer's value under the action of source A where the insert buffer's verdict is TRIPPED, else of B
where B is TRIPPED, and 0 with the silence flag set; MUTE gives 0, ATTENUATE s the floor of the value over 2^s. -/
def Obligations.ArithmeticStaysInRange : Prop :=
  (∀ (e : TapEntry) (c : Nat),
     effectiveDelay e c = max 16384 (min 33562623 (256 * e.delay + e.fraction.toNat + e.depth.toNat * c / 16)) ∧
     64 ≤ effectiveDelay e c / 256 ∧ effectiveDelay e c / 256 ≤ 131103 ∧
     effectiveDelay e c = 256 * (effectiveDelay e c / 256) + effectiveDelay e c % 256) ∧
  (((∀ (x0 x1 : Int) (f : Nat), f ≤ 255 → interpolate x0 x1 f = x0 + (x1 - x0) * f / 256 ∧
     min x0 x1 ≤ interpolate x0 x1 f ∧ interpolate x0 x1 f ≤ max x0 x1) ∧
   (∀ (gb ge : Int) (j : Nat), j < 32 → gainAt gb ge j = gb + (ge - gb) * (j + 1) / 32 ∧
     min gb ge ≤ gainAt gb ge j ∧ gainAt gb ge j ≤ max gb ge ∧ gainAt gb ge 31 = ge) ∧
   (∀ v g : Int, -8388608 ≤ v → v ≤ 8388607 → -32768 ≤ g → g ≤ 32767 → -274877906944 ≤ v * g ∧ v * g ≤ 274877906944) ∧
   ∀ (p : Pass) (acc : List (List Acc)) (c j : Nat), c < 16 → j < 32 → p.snapshot.monitors.getD c none = none →
     (((p.values acc).getD c []).getD j 0).toInt = max (-8388608) (min 8388607
       (((((acc.getD c []).getD j 0).toInt + 16384) / 32768 *
         gainAt (p.snapshot.masters.getD c (0, 0)).1 (p.snapshot.masters.getD c (0, 0)).2 j + 16384) / 32768)))) ∧
  ((∀ (floor : Block) (t : Time) (w : Word), flooredSample floor t w =
      if 0 < (BitVec.ofNat 37 (32 * floor.toNat) - t).toInt then 0 else (BitVec.setWidth 24 w).toInt) ∧
   (∀ (b floor : Block) (d k : Nat) (words : List Word),
      let oldest := BitVec.ofNat 37 (32 * (b + 2).toNat) - BitVec.ofNat 37 (d + 1)
      tapSample b floor d words k =
        flooredSample floor (oldest + BitVec.ofNat 37 k) (words.getD (oldest.toNat % 8 + k) 0)) ∧
   (∀ (b floor : Block) (d f : Nat) (gb ge : Int) (words : List Word) (j : Nat),
      tapProduct b floor d f (gb, ge) words j =
        interpolate (tapSample b floor d words (j + 1)) (tapSample b floor d words j) f * gainAt gb ge j ∧
      (f ≤ 255 → -32768 ≤ gb → gb ≤ 32767 → -32768 ≤ ge → ge ≤ 32767 → j < 32 →
        -274877906944 ≤ tapProduct b floor d f (gb, ge) words j ∧
        tapProduct b floor d f (gb, ge) words j ≤ 274877906944)) ∧
   ∀ (p : Pass) (acc : List (List Acc)) (c : Fin 16) (line : Fin 64) (j : Nat) (before rest : List MonitorRead)
     (m : MonitorRead), j < 32 → p.snapshot.monitors.getD c.val none = some line → p.monitors = before ++ m :: rest →
     (∀ x ∈ before, x.channel ≠ c) → m.channel = c →
     (((p.values acc).getD c.val []).getD j 0).toInt = max (-8388608) (min 8388607
       (((if 32 ≤ m.words.length then
           flooredSample p.snapshot.floor (BitVec.ofNat 37 (32 * p.number.toNat + j)) (m.words.getD j 0) else 0) *
         gainAt (p.snapshot.masters.getD c.val (0, 0)).1 (p.snapshot.masters.getD c.val (0, 0)).2 j + 16384) / 32768))) ∧
  ((∀ (o : Output) (c j : Nat),
      let z := (o.insert.values.getD c []).getD j 0
      (o.silence.getD c false = true → o.insertedValue c j = 0) ∧
      (o.silence.getD c false = false →
        ((o.copy.getD c ⟨none, none⟩).group = none → o.insertedValue c j = z) ∧
        ∀ k : Fin 4, (o.copy.getD c ⟨none, none⟩).group = some k → o.insertedValue c j =
          if o.insert.verdicts.getD k.val false = true then (o.group k.val).aAction.apply z
          else if (o.group k.val).bTripped = true then (o.group k.val).bAction.apply z
          else z)) ∧
   ∀ z : Sample, GuardAction.mute.apply z = 0 ∧
     ∀ n, 1 ≤ n → n ≤ 4 → ((GuardAction.attenuate n).apply z).toInt = z.toInt / 2 ^ n)

/-- A ramp's value lies between its start and its target and is the target at its last step; a step moves it on by one;
a retarget starts from the current gain under the unit its direction chooses, or leaves the ramp idle at it, and does not
change the current gain. -/
def Obligations.RampsStepAndRetarget : Prop :=
  (∀ (m : Ramp) (q : Nat), 0 < m.len → q ≤ m.len → m.value q = m.g0 + (m.g1 - m.g0) * q / m.len ∧
    min m.g0 m.g1 ≤ m.value q ∧ m.value q ≤ max m.g0 m.g1 ∧ m.value 0 = m.g0 ∧ m.value m.len = m.g1) ∧
  (∀ m : Ramp, m.gains = (m.value m.p, m.value (min (m.p + 1) m.len)) ∧
    m.step = { m with p := min (m.p + 1) m.len } ∧ m.step.current = m.gains.2) ∧
  ∀ (m : Ramp) (g : Int) (rise fall : Nat),
    (m.current < g → m.retarget g rise fall = ⟨m.current, g, rise, 0⟩) ∧
    (g < m.current → m.retarget g rise fall = ⟨m.current, g, fall, 0⟩) ∧
    (g = m.current → m.retarget g rise fall = ⟨m.current, m.current, m.len, m.len⟩) ∧
    (m.retarget g rise fall).current = m.current

/-! ### Refresh and the memory states -/

/-- An expiry of the running refresh timer raises the owed count by one, or is held where the count is 8; the end of a
refresh lowers the count by one, closes every bank and takes a held expiry. The controller goes on after each: where it is
free in READY, DRAINING and ENTERING it serves a refresh first where the queue is empty or eight are owed, and else the
oldest burst. In SETTING it serves the refreshes owed when SETTING began and then begins the mode set; an expiry in SETTING
adds none to them. An expiry of a timer that does not run, and the end of a refresh that is not served, change nothing,
which is the model's own choice (log 2), as it is that the timer takes the interval stored in ENTERING too (log 33) and that
a refresh in service when SETTING begins is one of those SETTING serves (log 18). -/
def Obligations.RefreshDebtRisesAndIsPaid : Prop :=
  (∀ (s : State) (i : Interval), s.resetPin = false → s.mem.timer = .running i →
    ∃ t, exec .refreshDue s = .next t ∧
      (s.mem.owed < 8 → t.mem.owed = s.mem.owed + 1 ∧ t.mem.timer = .running s.mem.interval) ∧
      (8 ≤ s.mem.owed → t.mem.owed = s.mem.owed ∧ t.mem.timer = .expired) ∧
      GoesOn { s.mem with owed := t.mem.owed, timer := t.mem.timer } t ∧ t = { s with mem := t.mem }) ∧
  (∀ s : State, (∀ i, s.mem.timer ≠ .running i) → exec .refreshDue s = .next s) ∧
  (∀ s : State, s.resetPin = false → s.mem.service = .refresh →
    ∃ t, exec .refreshEnd s = .next t ∧
      (s.mem.timer = .expired → t.mem.owed = s.mem.owed - 1 + 1 ∧ t.mem.timer = .running s.mem.interval) ∧
      (s.mem.timer ≠ .expired → t.mem.owed = s.mem.owed - 1 ∧ t.mem.timer = s.mem.timer) ∧
      GoesOn { s.mem with
        owed := t.mem.owed, timer := t.mem.timer, settingRefreshes := s.mem.settingRefreshes - 1
        bankTable := [none, none, none, none], service := .none, periods := 0 } t ∧ t = { s with mem := t.mem }) ∧
  ∀ s : State, s.mem.service ≠ .refresh → exec .refreshEnd s = .next s

/-- The end of the initialization, of SETTING or of LEAVING takes the memory to READY, or on to ENTERING with the
self-refresh request set: the timer is started with the interval stored, the latency stored comes in force, the banks are
CLOSED, and the controller goes on from there. The initialization alone sets the floor; it and LEAVING leave no refresh
owed; SETTING keeps the count; the MEMORY-SETUP that began an initialization or a SETTING completes. The self-refresh entry
command takes ENTERING to HELD: the banks are CLOSED, no refresh is owed and the timer is stopped. A sequence's end that is
not due changes nothing, which is the model's own choice (log 2), as it is that the latency is read at the end of LEAVING
(log 32) and that an expiry held at the end of SETTING is dropped (log 38). -/
def Obligations.MemorySequencesComplete : Prop :=
  ((∀ s : State, s.resetPin = false → s.mem.state = .initializing →
     ∃ t, exec .memoryInitComplete s = .next t ∧ GoesOn (arrived s.mem 0) t ∧
       t.lines = { s.lines with floor := if s.link.state = .locked then s.link.block else s.lines.floor } ∧
       t.records = setupCompleted s ∧ t = { s with mem := t.mem, lines := t.lines, records := t.records }) ∧
   (∀ s : State, s.resetPin = false → s.mem.state = .setting → s.mem.service = .modeSet →
     ∃ t, exec .modeSetComplete s = .next t ∧ GoesOn (arrived s.mem s.mem.owed) t ∧
       t.records = setupCompleted s ∧ t = { s with mem := t.mem, records := t.records }) ∧
   ∀ s : State, s.resetPin = false → s.mem.state = .leaving →
     ∃ t, exec .selfRefreshExit s = .next t ∧ GoesOn (arrived s.mem 0) t ∧ t = { s with mem := t.mem }) ∧
  ((∀ s : State, s.resetPin = false → s.mem.state = .entering → s.mem.service = .selfRefreshEntry →
     exec .selfRefreshEntry s = .next { s with mem := { s.mem with
       state := .held, bankTable := [none, none, none, none], owed := 0, timer := .stopped, service := .none,
       periods := 0 } }) ∧
   ∀ s : State, (s.mem.state ≠ .initializing → exec .memoryInitComplete s = .next s) ∧
     (s.mem.state ≠ .setting ∨ s.mem.service ≠ .modeSet → exec .modeSetComplete s = .next s) ∧
     (s.mem.state ≠ .entering ∨ s.mem.service ≠ .selfRefreshEntry → exec .selfRefreshEntry s = .next s) ∧
     (s.mem.state ≠ .leaving → exec .selfRefreshExit s = .next s))

/-- A MEMORY-SETUP of the right length acts by the memory state: held in INITIALIZING and RESETTING-MODE; from UNINIT the
initialization begins; from READY the drain begins, and is over at once where no pass is left to wait for, the refreshes
owed then being those that SETTING serves, a field and a reading of the model's own (log 18); in SELF-REFRESH the record
completes. Checked parameters are stored at once; an unknown interval or latency completes MALFORMED. -/
def Obligations.MemorySetupActsByTheMemoryState : Prop :=
  (∀ s : State, s.mem.state = .initializing ∨ s.mem.state = .draining ∨ s.mem.state = .setting →
    ∀ r, AtTable s .memorySetup r → exec .memorySetup s = .next s) ∧
  ∀ (s : State) (r : Record), AtTable s .memorySetup r → r.body.length = 3 →
    s.mem.state = .uninit ∨ s.mem.state = .ready ∨ s.mem.state = .entering ∨ s.mem.state = .held ∨
      s.mem.state = .leaving →
    (1 < byteAt r.body 1 ∨ (byteAt r.body 2 ≠ 2 ∧ byteAt r.body 2 ≠ 3) →
      exec .memorySetup s = .next { s with records := tableDone s r .malformed {} }) ∧
    (byteAt r.body 1 ≤ 1 → byteAt r.body 2 = 2 ∨ byteAt r.body 2 = 3 →
      let m := { s.mem with
        refreshCount := max 2 (min 15 (byteAt r.body 0)), latency := byteAt r.body 2
        interval := if byteAt r.body 1 = 0 then .us78 else .us39 }
      ∃ t, exec .memorySetup s = .next t ∧ t = { s with mem := t.mem, records := t.records } ∧
        (s.mem.state = .uninit →
          t.mem = { m with
            state := .initializing, service := .initialization, periods := 3 + 10 * m.refreshCount + (2 + 4) } ∧
          t.records = { s.records with setup := some (setupClamps r) }) ∧
        (s.mem.state = .ready → GoesOn { m with state := .draining } t ∧
          t.records = { s.records with setup := some (setupClamps r) }) ∧
        (s.mem.state = .entering ∨ s.mem.state = .held ∨ s.mem.state = .leaving → t.mem = m ∧
          t.records = tableDone s r (if setupClamps r then .doneWithClamps else .done)
            { written := 1, clamped := bit (setupClamps r) 1 }))

/-! ### Scene tables -/

/-- The check of a tap entry before it is stored: VACANT for a channel byte of 255, for another node's channel and for a
line of 64 or more; else ACTIVE with its fields, its delay brought into the window and its generator code into 0..4. -/
def Obligations.TapEntryIsChecked : Prop :=
  ∀ (p : Fin 4) (e : List Byte),
    (byteAt e 0 = 255 → checkTapEntry p e = (none, { written := true })) ∧
    (byteAt e 0 ≠ 255 → byteAt e 0 / 16 ≠ p.val → checkTapEntry p e = (none, { written := true, foreign := true })) ∧
    (byteAt e 0 ≠ 255 → byteAt e 0 / 16 = p.val → 64 ≤ byteAt e 1 →
      checkTapEntry p e = (none, { written := true, rejected := true })) ∧
    (byteAt e 0 ≠ 255 → byteAt e 0 / 16 = p.val → byteAt e 1 < 64 →
      ∃ x m, checkTapEntry p e = (some x, m) ∧
        m = { written := true, clamped := m.clamped } ∧
        (m.clamped = true ↔ 256 * field3 e 2 + byteAt e 5 < 16384 ∨ 33562623 < 256 * field3 e 2 + byteAt e 5 ∨
          5 ≤ byteAt e 9) ∧
        x.channel.val = byteAt e 0 - 16 * p.val ∧ x.line.val = byteAt e 1 ∧
        256 * x.delay + x.fraction.toNat = max 16384 (min 33562623 (256 * field3 e 2 + byteAt e 5)) ∧
        64 ≤ x.delay ∧ x.delay ≤ 131103 ∧ x.gain.toNat = field2 e 6 ∧ x.depth = e.getD 10 0 ∧
        x.rise = (if (e.getD 8 0).getLsbD 0 then .b else .a) ∧ x.fall = (if (e.getD 8 0).getLsbD 1 then .b else .a) ∧
        x.gen.map Fin.val = if 1 ≤ byteAt e 9 ∧ byteAt e 9 ≤ 4 then some (byteAt e 9 - 1) else none)

/-- A TAP-WRITE, no fade being in flight, stores its entries one after another in the SHADOW bank from the start index on
as they are checked, until the pointer locks; it leaves the pointer after the last stored, counts its entries and completes.
The ACTIVE bank and everything else are unchanged. -/
def Obligations.TapWriteStoresItsEntries : Prop :=
  ∀ (s : State) (r : Record), AtTable s .tapWrite r → s.store.fade = false → 4 ≤ r.body.length →
    r.body.length = 4 + 16 * field2 r.body 2 → (s.store.bank (otherBank s.store.active)).length = 1024 →
    let start := field2 r.body 0
    let count := field2 r.body 2
    let n := storedCount start count
    let marks := (List.range n).map fun k => (checkTapEntry s.position (wireEntry r.body k)).2
    ∃ t, exec .tapWrite s = .next t ∧
      (∀ k < n, (t.store.bank (otherBank s.store.active)).getD (start + k) none =
        (checkTapEntry s.position (wireEntry r.body k)).1) ∧
      (∀ i, i < start ∨ start + n ≤ i → (t.store.bank (otherBank s.store.active)).getD i none =
        (s.store.bank (otherBank s.store.active)).getD i none) ∧
      t.store = { s.store.withBank (otherBank s.store.active) (t.store.bank (otherBank s.store.active)) with
        pointer := min 1023 (start + n), pointerLocked := decide (1024 ≤ start + n) } ∧
      t.records = tableDone s r
        (if n < count then .clipped else if ∃ m ∈ marks, m.flagged = true then .doneWithClamps else .done)
        { written := n, clamped := marks.countP (·.clamped), rejected := marks.countP (·.rejected) + (count - n),
          foreign := marks.countP (·.foreign), first := (marks.findIdx? Mark.flagged).getD (if n < count then n else 0) } ∧
      t = { s with store := t.store, records := t.records }

/-- A TAP-CLEAR, no fade being in flight, sets the SHADOW-bank entries of its range to VACANT and stops at 1,023; what
lies beyond is counted as clamped. That a count of 0 completes DONE from any first index is read from the manual (log 29). -/
def Obligations.TapClearVacatesItsRange : Prop :=
  ∀ (s : State) (r : Record), AtTable s .tapClear r → s.store.fade = false → r.body.length = 4 →
    (s.store.bank (otherBank s.store.active)).length = 1024 →
    let first := field2 r.body 0
    let count := field2 r.body 2
    let n := min count (1024 - first)
    ∃ t, exec .tapClear s = .next t ∧
      (∀ i, (t.store.bank (otherBank s.store.active)).getD i none =
        if first ≤ i ∧ i < first + count then none else (s.store.bank (otherBank s.store.active)).getD i none) ∧
      t.store = s.store.withBank (otherBank s.store.active) (t.store.bank (otherBank s.store.active)) ∧
      t.records = tableDone s r (if n < count then .doneWithClamps else .done)
        { written := n, clamped := count - n, first := 0 } ∧
      t = { s with store := t.store, records := t.records }

/-- A COPY-ACTIVE, no fade being in flight, replaces the SHADOW bank by the stored entries of the ACTIVE bank and completes
DONE with a written count of 1,024; no ramp, no pointer and nothing else changes. TAP-WRITE, TAP-CLEAR and COPY-ACTIVE wait
at the head, without executing, while a fade is in flight; that a TAP-CLEAR or a COPY-ACTIVE of a wrong length waits so too is
the model's own choice (log 36). -/
def Obligations.CopyActiveCopiesTheScene : Prop :=
  (∀ (s : State) (r : Record), AtTable s .copyActive r → s.store.fade = false → r.body = [] →
     exec .copyActive s = .next { s with
       store := s.store.withBank (otherBank s.store.active) (s.store.bank s.store.active)
       records := tableDone s r .done { written := 1024 } }) ∧
  (∀ (s : State) (r : Record), s.store.fade = true →
     (AtTable s .tapWrite r → exec .tapWrite s = .next s) ∧ (AtTable s .tapClear r → exec .tapClear s = .next s) ∧
     (AtTable s .copyActive r → exec .copyActive s = .next s))

/-! ### Swaps -/

/-- A valid SWAP at the head becomes the pending swap and stays at the head, marked late where it is AT-BLOCK n and n is not
after the block in progress; an invalid one completes MALFORMED; one that is pending already waits. That an n exactly 2^31
blocks away counts as not after the block in progress is the model's own choice (log 39). -/
def Obligations.SwapBecomesPending : Prop :=
  (∀ (s : State) (r : Record), AtTable s .swap r → s.store.swap ≠ none → exec .swap s = .next s) ∧
  ∀ (s : State) (r : Record), AtTable s .swap r → s.store.swap = none → r.body.length = 7 →
    (∀ (tr : Trigger) (fade : Fade), triggerOf r.body = some tr → fadeOf (byteAt r.body 6) = some fade →
      exec .swap s = .next { s with store := { s.store with swap := some ⟨tr, fade,
        (match tr with
         | .atBlock n => decide (s.link.state = .locked ∧ ¬0 < (n - s.link.block).toInt)
         | .next | .onCompare _ => false), r.tag, r.notify⟩ } }) ∧
    (triggerOf r.body = none ∨ fadeOf (byteAt r.body 6) = none →
      exec .swap s = .next { s with records := tableDone s r .malformed {} }) ∧
    (byteAt r.body 0 = 0 → triggerOf r.body = some .next) ∧
    (byteAt r.body 0 = 1 → triggerOf r.body = some (.atBlock (BitVec.ofNat 32 (field4 r.body 1)))) ∧
    (∀ k : Fin 4, byteAt r.body 0 = 2 → byteAt r.body 5 = k.val → triggerOf r.body = some (.onCompare k)) ∧
    (2 < byteAt r.body 0 ∨ (byteAt r.body 0 = 2 ∧ 4 ≤ byteAt r.body 5) → triggerOf r.body = none) ∧
    (byteAt r.body 6 ≤ 6 → fadeOf (byteAt r.body 6) = some (.exponent (byteAt r.body 6))) ∧
    (byteAt r.body 6 = 255 → fadeOf (byteAt r.body 6) = some .cut) ∧
    (6 < byteAt r.body 6 → byteAt r.body 6 ≠ 255 → fadeOf (byteAt r.body 6) = none)

/-- A pending swap comes due LATE where it is marked late or its block has passed, and DONE at its block, at the next
boundary for NEXT and at a compare event for ON-COMPARE. At a boundary, renumbering or not, one that comes due exchanges the
banks and leaves the head of the table-class queue; one that does not stays pending, and a fade whose end-ready mark is set
then ends, which at a boundary that begins no pass is the model's reading (log 35), as it is that a FINISHING running at the
boundary reports after that check (log 12). That an AT-BLOCK swap exactly 2^31 blocks away keeps waiting is the model's own
choice (log 39). -/
def Obligations.PendingSwapIsJudgedAtEveryBoundary : Prop :=
  (∀ (w : PendingSwap) (served : List (Fin 4)) (n : Block),
    (w.trigger = .next → w.due served n = some .done) ∧
    (∀ m, w.trigger = .atBlock m → w.due served n =
      if w.late = true ∨ 0 < (n - m).toInt then some .late else if n = m then some .done else none) ∧
    ∀ k, w.trigger = .onCompare k → w.due served n = if k ∈ served then some .done else none) ∧
  (∀ (f : Frame) (g : Bool) (s : State) (w : PendingSwap), AtBoundary s f → s.store.swap = some w →
    ComesDue s w f.block → ∃ t, exec (.frameArrival f g) s = .next t ∧ t.store.swap = none ∧
      t.store.active = otherBank s.store.active ∧ (t.store.fade = true ↔ w.fade ≠ .cut) ∧ t.store.endReady = false ∧
      t.records.table = s.records.table.drop 1) ∧
  ∀ (f : Frame) (g : Bool) (s : State), AtBoundary s f → (∀ w, s.store.swap = some w → ¬ComesDue s w f.block) →
    ∃ t, exec (.frameArrival f g) s = .next t ∧ t.store.swap = s.store.swap ∧ t.store.active = s.store.active ∧
      t.store.fade = (s.store.fade && !s.store.endReady) ∧ t.records.table = s.records.table ∧
      (s.store.fade = true → s.store.endReady = true →
        t.ramps.taps (otherBank s.store.active) = List.replicate 1024 none)

/-- The swap itself: the bank that was not ACTIVE comes in with a ramp for each of its ACTIVE entries, from 0 over 2^e
steps or idle at the stored gain under CUT; the other bank's ramps go from their current gains to 0, or are discarded; the
record completes and a SWAP notice follows it. A fade in flight ends first. -/
def Obligations.SwapBuildsItsRamps : Prop :=
  ∀ (s : State) (w : PendingSwap) (o : RecordOutcome) (n : Block),
    let k := otherBank s.store.active
    let t := s.takeSwap w o n
    t.store = { s.store with active := k, fade := w.fade != .cut, endReady := false, swap := none } ∧
    (∀ i, (t.ramps.taps k).getD i none = ((s.store.bank k).getD i none).map fun e =>
      match w.fade with
      | .exponent x => ⟨0, e.gain.toInt, 2 ^ x, 0⟩
      | .cut => ⟨e.gain.toInt, e.gain.toInt, 1, 1⟩) ∧
    (∀ i, (t.ramps.taps s.store.active).getD i none =
      match w.fade with
      | .exponent x => ((s.ramps.taps s.store.active).getD i none).map fun m => ⟨m.current, 0, 2 ^ x, 0⟩
      | .cut => none) ∧
    t.ramps.masters = s.ramps.masters ∧ t.ramps.unitA = s.ramps.unitA ∧ t.ramps.unitB = s.ramps.unitB ∧
    t.records = (({ s.records with table := s.records.table.drop 1 }.complete s.noticeBlock w.tag .swap w.notify o
      {}).queueNotice (.swap w.tag n)) ∧
    t = { s with store := t.store, ramps := t.ramps, records := t.records }

/-- A CANCEL-SWAP removes the pending swap, which completes CANCELLED, and completes DONE with a written count of 1; with no
swap pending it completes DONE with a written count of 0 and changes nothing else. -/
def Obligations.CancelSwapRemovesThePendingSwap : Prop :=
  ∀ (s : State) (r : Record), AtLive s .cancelSwap r → r.body = [] →
    (s.store.swap = none → exec .cancelSwap s = .next { s with records := liveDone s r .done {} }) ∧
    ∀ w, s.store.swap = some w → exec .cancelSwap s = .next { s with
      store := { s.store with swap := none }
      records := ({ s.records with
          table := s.records.table.drop 1, live := s.records.live.drop 1 }.queueNotice
            (.completion w.tag Op.swap.code .cancelled {} s.noticeBlock)).complete s.noticeBlock r.tag r.op r.notify
              .done { written := 1 } }

/-! ### Records that carry lists -/

/-- The entries of a record are taken in the order they stand, each on what the one before it left; each count is the
number of entries counted so, a discarded one as rejected; the first index is that of the first entry clamped, rejected,
foreign or discarded; the outcome is CLIPPED with a discarded entry, else DONE-WITH-CLAMPS with such an entry, else DONE. -/
def Obligations.EntriesAreCounted : Prop :=
  ∀ (σ : Type) (f : σ → List Byte → σ × Mark) (es : List (List Byte)) (x : σ),
    let marks := marksOf f es x
    (takeEntries f es 0 x {}).1 = es.foldl (fun y e => (f y e).1) x ∧ marks.length = es.length ∧
    (takeEntries f es 0 x {}).2.counts =
      ⟨marks.countP (·.written), marks.countP (·.clamped), marks.countP (fun m => m.rejected || m.discarded),
        marks.countP (·.foreign), (marks.findIdx? Mark.flagged).getD 0⟩ ∧
    (takeEntries f es 0 x {}).2.outcome =
      if ∃ m ∈ marks, m.discarded = true then .clipped
      else if ∃ m ∈ marks, m.flagged = true then .doneWithClamps else .done

/-- LINE-MAP and OUTPUT-MAP take their entries in order, change the line map or the channel table alone, and complete.
The entry of a LINE-MAP writes its line or is rejected. An OUTPUT-MAP entry of another node's channel is skipped; one with
an invalid slot or group code is rejected; another gives its channel the slot and the group, and takes the slot from any
other channel that holds it, whose group stays. -/
def Obligations.MapRecordsTakeTheirEntries : Prop :=
  ((∀ (s : State) (r : Record), AtTable s .lineMap r → IsList 3 r →
     let x := takeEntries lineMapEntry (entriesOf 3 r.body) 0 s.lines.map {}
     exec .lineMap s = .next { s with
       lines := { s.lines with map := x.1 }, records := tableDone s r x.2.outcome x.2.counts }) ∧
   (∀ (s : State) (r : Record), AtTable s .outputMap r → IsList 3 r →
     let x := takeEntries (outputMapEntry s.localChannel) (entriesOf 3 r.body) 0 s.store.channels {}
     exec .outputMap s = .next { s with
       store := { s.store with channels := x.1 }, records := tableDone s r x.2.outcome x.2.counts }) ∧
   ∀ (m : List LineSource) (e : List Byte),
     (∀ source, byteAt e 0 < 64 → lineSourceOf (byteAt e 1) (byteAt e 2) = some source →
       lineMapEntry m e = (m.set (byteAt e 0) source, { written := true })) ∧
     (64 ≤ byteAt e 0 ∨ lineSourceOf (byteAt e 1) (byteAt e 2) = none → lineMapEntry m e = (m, { rejected := true })) ∧
     lineSourceOf 0 (byteAt e 2) = some .none ∧
     (∀ n : Fin 128, lineSourceOf 1 n.val = some (.ring n)) ∧ (∀ c : Fin 16, lineSourceOf 2 c.val = some (.return c)) ∧
     (∀ n, (128 ≤ n → lineSourceOf 1 n = none) ∧ (16 ≤ n → lineSourceOf 2 n = none)) ∧
     ∀ k n, 3 ≤ k → lineSourceOf k n = none) ∧
  (∀ (s : State) (channels : List Channel) (e : List Byte), channels.length = 16 →
     (byteAt e 0 / 16 ≠ s.position.val → outputMapEntry s.localChannel channels e = (channels, {})) ∧
     (byteAt e 0 / 16 = s.position.val →
       ((127 < byteAt e 1 ∧ byteAt e 1 ≠ 255) ∨ (3 < byteAt e 2 ∧ byteAt e 2 ≠ 255) →
         outputMapEntry s.localChannel channels e = (channels, { rejected := true })) ∧
       ∀ (slot : Option (Fin 128)) (group : Option (Fin 4)), slotOf (byteAt e 1) = some slot →
         groupOf (byteAt e 2) = some group →
         ∃ after m, outputMapEntry s.localChannel channels e = (after, m) ∧ after.length = 16 ∧
           m = { written := true, clamped := m.clamped } ∧
           (m.clamped = true ↔ slot ≠ none ∧ ∃ k < 16, k ≠ byteAt e 0 % 16 ∧
             (channels.getD k Channel.reset).slot = slot) ∧
           ∀ k < 16, after.getD k Channel.reset =
             if k = byteAt e 0 % 16 then { channels.getD k Channel.reset with slot := slot, group := group }
             else if slot ≠ none ∧ (channels.getD k Channel.reset).slot = slot then
               { channels.getD k Channel.reset with slot := none }
             else channels.getD k Channel.reset) ∧
     (∀ n : Fin 128, slotOf n.val = some (some n)) ∧ slotOf 255 = some none ∧
     (∀ k : Fin 4, groupOf k.val = some (some k)) ∧ groupOf 255 = some none)

/-- TAP-GAIN, MASTER-GAIN and OVERRIDE take their pairs or channels in order and complete, MASTER-GAIN and OVERRIDE with
DONE. The mode of an OVERRIDE is 0 FOLLOW, 1 SILENCE or 2 LINE-MONITOR, which alone reads a line, and its timing 0 FRAME or 1
BLOCK. -/
def Obligations.GainAndOverrideRecordsTakeTheirEntries : Prop :=
  (∀ (s : State) (r : Record), AtLive s .tapGain r → IsList 4 r →
    let x := takeEntries tapGainEntry (entriesOf 4 r.body) 0 s {}
    exec .tapGain s = .next { s with
      store := x.1.store, ramps := x.1.ramps, records := liveDone s r x.2.outcome x.2.counts }) ∧
  (∀ (s : State) (r : Record), AtLive s .masterGain r → IsList 3 r →
    let x := takeEntries masterGainEntry (entriesOf 3 r.body) 0 s {}
    exec .masterGain s = .next { s with
      store := x.1.store, ramps := x.1.ramps, records := liveDone s r .done x.2.counts }) ∧
  (∀ (s : State) (r : Record) (m : OverrideMode) (line : Fin 64) (block : Bool), AtLive s .override r →
    4 ≤ r.body.length → overrideOf r.body = some (m, line, block) →
    let x := takeEntries (overrideEntry m line block) (entriesOf 1 (r.body.drop 3)) 0 s {}
    exec .override s = .next { s with
      store := x.1.store, out := x.1.out, records := liveDone s r .done x.2.counts }) ∧
  (∀ (s : State) (r : Record), AtLive s .override r → 4 ≤ r.body.length →
    2 < byteAt r.body 0 ∨ 1 < byteAt r.body 2 ∨ (byteAt r.body 0 = 2 ∧ 64 ≤ byteAt r.body 1) →
    exec .override s = .next { s with records := liveDone s r .malformed {} }) ∧
  ∀ b : List Byte, byteAt b 2 ≤ 1 →
    (byteAt b 0 = 0 → ∃ line, overrideOf b = some (.follow, line, byteAt b 2 == 1)) ∧
    (byteAt b 0 = 1 → ∃ line, overrideOf b = some (.silence, line, byteAt b 2 == 1)) ∧
    ∀ line : Fin 64, byteAt b 0 = 2 → byteAt b 1 = line.val → overrideOf b = some (.lineMonitor, line, byteAt b 2 == 1)

/-- One pair of a TAP-GAIN replaces the stored gain of an ACTIVE entry of the ACTIVE bank and retargets its ramp, or is
rejected; one of a MASTER-GAIN replaces the set gain of a channel of the node, and retargets its master ramp in RUN alone;
one channel of an OVERRIDE takes the mode, and its silence changes by the timing. That a FRAME change waits for the next
arrival as a flag of its own is the model's own form (log 21). -/
def Obligations.GainAndOverrideEntriesAct : Prop :=
  (∀ (s : State) (e : List Byte) (x : TapEntry), (s.store.bank s.store.active).getD (field2 e 0) none = some x →
    tapGainEntry s e = ({ s with
      store := s.store.withBank s.store.active ((s.store.bank s.store.active).set (field2 e 0)
        (some { x with gain := BitVec.ofNat 16 (field2 e 2) }))
      ramps := s.ramps.withTaps s.store.active ((s.ramps.taps s.store.active).modify (field2 e 0)
        (Option.map fun m => m.retarget (BitVec.ofNat 16 (field2 e 2)).toInt
          (2 ^ (if x.rise = .a then s.ramps.unitA else s.ramps.unitB))
          (2 ^ (if x.fall = .a then s.ramps.unitA else s.ramps.unitB)))) }, { written := true })) ∧
  (∀ (s : State) (e : List Byte), (s.store.bank s.store.active).getD (field2 e 0) none = none →
    tapGainEntry s e = (s, { rejected := true })) ∧
  (∀ (s : State) (e : List Byte), byteAt e 0 / 16 ≠ s.position.val → masterGainEntry s e = (s, {}) ∧
    ∀ m line block, overrideEntry m line block s e = (s, {})) ∧
  (∀ (s : State) (e : List Byte), byteAt e 0 / 16 = s.position.val →
    let c := byteAt e 0 % 16
    let g : Half := BitVec.ofNat 16 (field2 e 1)
    ∃ t, masterGainEntry s e = (t, { written := true }) ∧
      t.store = { s.store with channels := s.store.channels.set c { s.store.channel c with setGain := g } } ∧
      (s.records.node = .run → t.ramps = { s.ramps with
        masters := s.ramps.masters.set c ((s.ramps.masters.getD c ⟨0, 0, 1, 1⟩).retarget g.toNat
          (2 ^ s.ramps.unitA) (2 ^ s.ramps.unitB)) }) ∧
      (s.records.node ≠ .run → t.ramps = s.ramps) ∧ t = { s with store := t.store, ramps := t.ramps }) ∧
  ∀ (s : State) (e : List Byte) (m : OverrideMode) (line : Fin 64) (block : Bool), byteAt e 0 / 16 = s.position.val →
    let c := byteAt e 0 % 16
    ∃ t, overrideEntry m line block s e = (t, { written := true }) ∧
      t.store.channels = s.store.channels.set c { s.store.channel c with
        override := m, monitorLine := if m = .lineMonitor then line else (s.store.channel c).monitorLine } ∧
      t.store = { s.store with channels := t.store.channels } ∧
      (block = true → t.out = { s.out with silencePending := s.out.silencePending.set c (some (m == .silence)) }) ∧
      (block = false → t.out = { s.out with
        silenceNext := s.out.silenceNext.set c (some (m == .silence))
        silencePending := s.out.silencePending.set c none }) ∧
      t = { s with store := t.store, out := t.out }

/-- GUARD-SET and GUARD-RELEASE take their entries in order and complete; they change the guard groups, the verdicts and
the notices alone. A valid GUARD-SET entry replaces the settings of its source, those of A brought into range with the
detector count 0, and disables a source only by releasing it; a valid GUARD-RELEASE entry releases the source it names, or A
and then B; a release clears the trip state, and of A the count and the verdicts of both buffers, and queues a GUARD notice
where the source was TRIPPED. -/
def Obligations.GuardRecordsTakeTheirEntries : Prop :=
  ((∀ (s : State) (r : Record), AtLive s .guardSet r → IsList 9 r →
     let x := takeEntries (guardSetEntry r.tag) (entriesOf 9 r.body) 0 s {}
     exec .guardSet s = .next { s with out := x.1.out, records := liveDone x.1 r x.2.outcome x.2.counts } ∧
     x.1.records = { s.records with notices := x.1.records.notices, overflow := x.1.records.overflow }) ∧
   (∀ (s : State) (r : Record), AtLive s .guardRelease r → IsList 2 r →
     let x := takeEntries (guardReleaseEntry r.tag) (entriesOf 2 r.body) 0 s {}
     exec .guardRelease s = .next { s with out := x.1.out, records := liveDone x.1 r x.2.outcome x.2.counts } ∧
     x.1.records = { s.records with notices := x.1.records.notices, overflow := x.1.records.overflow }) ∧
   ∀ (tag : Half) (s : State) (e : List Byte),
     (3 < byteAt e 0 ∨ 1 < byteAt e 1 ∨ 1 < byteAt e 3 ∨ 4 < byteAt e 4 →
       guardSetEntry tag s e = (s, { rejected := true })) ∧
     (3 < byteAt e 0 ∨ 2 < byteAt e 1 → guardReleaseEntry tag s e = (s, { rejected := true })) ∧
     (∀ (k : Fin 4) (m : GuardMode) (a : GuardAction), byteAt e 0 = k.val → guardModeOf (byteAt e 3) = some m →
       guardActionOf (byteAt e 4) = some a →
       (byteAt e 1 = 0 →
         guardSetEntry tag s e = s.setA tag k (byteAt e 2 != 0) m a (field3 e 5) (byteAt e 8)) ∧
       (byteAt e 1 = 1 → guardSetEntry tag s e = s.setB tag k (byteAt e 2 != 0) m a)) ∧
     (∀ k : Fin 4, byteAt e 0 = k.val →
       (byteAt e 1 = 0 →
         guardReleaseEntry tag s e = (s.releaseA tag k (s.out.group k.val).count, { written := true })) ∧
       (byteAt e 1 = 1 → guardReleaseEntry tag s e = (s.releaseB tag k, { written := true })) ∧
       (byteAt e 1 = 2 → guardReleaseEntry tag s e =
         ((s.releaseA tag k (s.out.group k.val).count).releaseB tag k, { written := true }))) ∧
     guardModeOf 0 = some .latch ∧ guardModeOf 1 = some .block ∧ guardActionOf 0 = some .mute ∧
     ∀ n, 1 ≤ n → n ≤ 4 → guardActionOf n = some (.attenuate n)) ∧
  (∀ (tag : Half) (s : State) (k : Fin 4) (m : GuardMode) (a : GuardAction) (threshold limit : Nat),
     s.out.groups.length = 4 → s.out.insert.verdicts.length = 4 → s.out.filling.verdicts.length = 4 →
     (∃ t x, s.setA tag k true m a threshold limit = (t, x) ∧ x = { written := true, clamped := x.clamped } ∧
       (x.clamped = true ↔ threshold < 1 ∨ 8388608 < threshold ∨ limit = 0) ∧
       t.out.groups = s.out.groups.set k.val { s.out.group k.val with
         aEnable := true, aMode := m, aAction := a, threshold := max 1 (min 8388608 threshold), limit := max 1 limit,
         count := 0 } ∧
       t = { s with out := { s.out with groups := t.out.groups } }) ∧
     (∃ t x, s.setA tag k false m a threshold limit = (t, x) ∧ x = { written := true, clamped := x.clamped } ∧
       (x.clamped = true ↔ threshold < 1 ∨ 8388608 < threshold ∨ limit = 0) ∧
       t.out = { s.out with
         groups := s.out.groups.set k.val { s.out.group k.val with
           aEnable := false, aMode := m, aAction := a, threshold := max 1 (min 8388608 threshold), limit := max 1 limit,
           count := 0, aTripped := false }
         insert := { s.out.insert with verdicts := s.out.insert.verdicts.set k.val false }
         filling := { s.out.filling with verdicts := s.out.filling.verdicts.set k.val false } } ∧
       t.records = (if (s.out.group k.val).aTripped then s.records.queueNotice
         (.guard tag k .a false s.noticeBlock 0 (s.out.group k.val).count) else s.records) ∧
       t = { s with out := t.out, records := t.records }) ∧
     (∃ t, s.setB tag k true m a = (t, { written := true }) ∧
       t.out.groups = s.out.groups.set k.val { s.out.group k.val with bEnable := true, bMode := m, bAction := a } ∧
       t = { s with out := { s.out with groups := t.out.groups } }) ∧
     (∃ t, s.setB tag k false m a = (t, { written := true }) ∧
       t.out = { s.out with groups := s.out.groups.set k.val { s.out.group k.val with
         bEnable := false, bMode := m, bAction := a, bTripped := false } } ∧
       t.records = (if (s.out.group k.val).bTripped then s.records.queueNotice
         (.guard tag k .b false s.noticeBlock 0 0) else s.records) ∧
       t = { s with out := t.out, records := t.records }) ∧
     (∃ t, s.releaseA tag k (s.out.group k.val).count = t ∧
       t.out = { s.out with
         groups := s.out.groups.set k.val { s.out.group k.val with aTripped := false, count := 0 }
         insert := { s.out.insert with verdicts := s.out.insert.verdicts.set k.val false }
         filling := { s.out.filling with verdicts := s.out.filling.verdicts.set k.val false } } ∧
       t.records = (if (s.out.group k.val).aTripped then s.records.queueNotice
         (.guard tag k .a false s.noticeBlock 0 (s.out.group k.val).count) else s.records) ∧
       t = { s with out := t.out, records := t.records }) ∧
     ∃ t, s.releaseB tag k = t ∧
       t.out = { s.out with groups := s.out.groups.set k.val { s.out.group k.val with bTripped := false } } ∧
       t.records = (if (s.out.group k.val).bTripped then s.records.queueNotice
         (.guard tag k .b false s.noticeBlock 0 0) else s.records) ∧
       t = { s with out := t.out, records := t.records })

/-- GENERATOR-SET and GENERATOR-LOAD take their entries in order, change the generators alone, and complete. A valid
GENERATOR-SET entry writes the pending period and the compare settings and then the mode, with the effect of Table 20; a
valid GENERATOR-LOAD entry writes the counter, at most the period, and the direction: UP in RAMP and SINGLE, turned at the
ends in TRIANGLE, as given in OFF; both clear the postscale count. The modes are 0 OFF, 1 RAMP, 2 SINGLE and 3 TRIANGLE, the
directions 0 UP and 1 DOWN, the actions 0 NONE and 1 NOTICE. -/
def Obligations.GeneratorRecordsTakeTheirEntries : Prop :=
  ((∀ (s : State) (r : Record), AtLive s .generatorSet r → IsList 9 r →
     let x := takeEntries genSetEntry (entriesOf 9 r.body) 0 s.gens {}
     exec .generatorSet s = .next { s with gens := x.1, records := liveDone s r x.2.outcome x.2.counts }) ∧
   (∀ (s : State) (r : Record), AtLive s .generatorLoad r → IsList 4 r →
     let x := takeEntries genLoadEntry (entriesOf 4 r.body) 0 s.gens {}
     exec .generatorLoad s = .next { s with gens := x.1, records := liveDone s r x.2.outcome x.2.counts }) ∧
   (∀ (gens : List Generator) (e : List Byte),
     (3 < byteAt e 0 ∨ 3 < byteAt e 1 ∨ 1 < byteAt e 6 ∨ 1 < byteAt e 7 → genSetEntry gens e = (gens, { rejected := true })) ∧
     ∀ (k : Fin 4) (m : GenMode) (d : Direction) (notice : Bool), byteAt e 0 = k.val → genModeOf (byteAt e 1) = some m →
       directionOf (byteAt e 6) = some d → noticeActionOf (byteAt e 7) = some notice →
       (genSetEntry gens e).1 = gens.set k.val ({ gens.getD k.val Generator.reset with
         pendingPeriod := max 1 (min 4095 (field2 e 2)), compareValue := min 4095 (field2 e 4), compareDir := d,
         notice := notice, postscale := max 1 (min 16 (byteAt e 8)), postCount := 0 }.changeMode m) ∧
       (genSetEntry gens e).2.written = true ∧
       ((genSetEntry gens e).2.clamped = true ↔ field2 e 2 < 1 ∨ 4095 < field2 e 2 ∨ 4095 < field2 e 4 ∨
         byteAt e 8 < 1 ∨ 16 < byteAt e 8)) ∧
   ∀ (gens : List Generator) (e : List Byte),
     (3 < byteAt e 0 ∨ 1 < byteAt e 3 → genLoadEntry gens e = (gens, { rejected := true })) ∧
     ∀ (k : Fin 4) (d : Direction), byteAt e 0 = k.val → directionOf (byteAt e 3) = some d →
       let g := gens.getD k.val Generator.reset
       genLoadEntry gens e = (gens.set k.val { g with
         counter := min g.period (field2 e 1), dir := g.loadDirection (min g.period (field2 e 1)) d, postCount := 0 },
         { written := true, clamped := decide (g.period < field2 e 1) })) ∧
  (∀ (g : Generator) (m : GenMode),
     (g.mode = .off → m = .off → g.changeMode m = g) ∧
     (g.mode = .off → m ≠ .off → g.changeMode m = { g with mode := m, period := g.pendingPeriod, counter := 0, dir := .up }) ∧
     (g.mode ≠ .off → m = .off → g.changeMode m = { g with mode := .off }) ∧
     (g.mode ≠ .off → m = g.mode → g.changeMode m = g) ∧
     (g.mode = .triangle → m = .ramp ∨ m = .single → g.changeMode m = { g with mode := m, dir := .up }) ∧
     (g.mode = .ramp ∨ g.mode = .single → m = .triangle →
       g.changeMode m = { g with mode := m, dir := if g.counter = g.period then .down else .up }) ∧
     ((g.mode = .ramp ∧ m = .single) ∨ (g.mode = .single ∧ m = .ramp) → g.changeMode m = { g with mode := m })) ∧
  (∀ (g : Generator) (c : Nat) (d : Direction), 0 < g.period →
     (g.mode = .off → g.loadDirection c d = d) ∧
     (g.mode = .ramp ∨ g.mode = .single → g.loadDirection c d = .up) ∧
     (g.mode = .triangle → c = g.period → g.loadDirection c d = .down) ∧
     (g.mode = .triangle → c = 0 → g.loadDirection c d = .up) ∧
     (g.mode = .triangle → c ≠ 0 → c ≠ g.period → g.loadDirection c d = d)) ∧
  genModeOf 0 = some .off ∧ genModeOf 1 = some .ramp ∧ genModeOf 2 = some .single ∧ genModeOf 3 = some .triangle ∧
  directionOf 0 = some .up ∧ directionOf 1 = some .down ∧ noticeActionOf 0 = some false ∧ noticeActionOf 1 = some true

/-- At a boundary, renumbering or not, the four generators step unless the node is QUIESCENT. RAMP counts to its period
and returns to 0, SINGLE does and turns OFF, TRIANGLE turns at both ends, OFF holds; each return to 0 loads the pending
period; a compare event under NOTICE advances the postscale count. The VARIATION notices of a step: COMPARE where the count
reaches the postscale, then END where a SINGLE run ends. -/
def Obligations.GeneratorsStepAtTheBoundary : Prop :=
  (∀ (f : Frame) (g : Bool) (s : State), AtBoundary s f → ∃ t, exec (.frameArrival f g) s = .next t ∧
    t.gens = if s.records.node = .quiescent then s.gens else s.gens.map Generator.stepped) ∧
  (∀ g : Generator, g.stepped =
    if g.mode ≠ .off ∧ g.step.counter = g.compareValue ∧
        (if g.mode = .triangle then g.step.dir else .up) = g.compareDir ∧ g.notice = true then
      { g.step with postCount := if g.postCount + 1 = g.postscale then 0 else g.postCount + 1 }
    else g.step) ∧
  (∀ (g : Generator) (k : Fin 4) (n : Block), g.counter ≤ g.period → g.stepNotices k n =
    (if g.mode ≠ .off ∧ g.step.counter = g.compareValue ∧
        (if g.mode = .triangle then g.step.dir else .up) = g.compareDir ∧ g.notice = true ∧
        g.postCount + 1 = g.postscale then [.variation k false n g.step.counter g.step.dir] else []) ++
    if g.mode = .single ∧ g.counter = g.period then [.variation k true n g.step.counter g.step.dir] else []) ∧
  ∀ g : Generator,
    (g.mode = .off → g.step = g) ∧
    (g.mode = .ramp → g.counter < g.period → g.step = { g with counter := g.counter + 1 }) ∧
    (g.mode = .ramp → g.counter = g.period → g.step = { g with counter := 0, period := g.pendingPeriod }) ∧
    (g.mode = .single → g.counter < g.period → g.step = { g with counter := g.counter + 1 }) ∧
    (g.mode = .single → g.counter = g.period →
      g.step = { g with counter := 0, period := g.pendingPeriod, mode := .off }) ∧
    (g.mode = .triangle → g.dir = .up → g.step = { g with
      counter := g.counter + 1, dir := if g.counter + 1 = g.period then .down else .up }) ∧
    (g.mode = .triangle → g.dir = .down → 1 < g.counter → g.step = { g with counter := g.counter - 1 }) ∧
    (g.mode = .triangle → g.dir = .down → g.counter = 1 →
      g.step = { g with counter := 0, dir := .up, period := g.pendingPeriod })

/-- A RAMP-SET of two codes: 0..6 replaces an exponent, 255 leaves it, 7..254 sets it to 6 and is clamped; nothing else
changes, so that ramps in flight keep their lengths. A retarget takes its length from the exponents as they stand. -/
def Obligations.RampSetReplacesTheExponents : Prop :=
  (∀ (s : State) (r : Record), AtLive s .rampSet r → r.body.length = 2 →
    let a := byteAt r.body 0
    let b := byteAt r.body 1
    let clampedA := 6 < a ∧ a ≠ 255
    let clampedB := 6 < b ∧ b ≠ 255
    exec .rampSet s = .next { s with
      ramps := { s.ramps with
        unitA := if a = 255 then s.ramps.unitA else min a 6, unitB := if b = 255 then s.ramps.unitB else min b 6 }
      records := liveDone s r (if clampedA ∨ clampedB then .doneWithClamps else .done)
        { written := (if a = 255 then 0 else 1) + (if b = 255 then 0 else 1)
          clamped := (if clampedA then 1 else 0) + (if clampedB then 1 else 0)
          first := if clampedA then 0 else if clampedB then 1 else 0 } }) ∧
  (∀ (q : Ramps) (c : Nat) (g : Int), q.retargetMaster c g = { q with
    masters := q.masters.set c ((q.masters.getD c ⟨0, 0, 1, 1⟩).retarget g (2 ^ q.unitA) (2 ^ q.unitB)) }) ∧
  ∀ (q : Ramps) (k : BankNo) (i : Nat) (e : TapEntry) (g : Int), q.retargetTap k i e g =
    q.withTaps k ((q.taps k).modify i (Option.map fun m => m.retarget g
      (2 ^ (if e.rise = .a then q.unitA else q.unitB)) (2 ^ (if e.fall = .a then q.unitA else q.unitB))))

/-- A record whose body has a wrong length leaves the head of its queue with MALFORMED and counts of 0, and changes
nothing else; a RESTART with a body likewise, and a STATE record with a request code of 4 or more. That a STATUS-READ of a
wrong length waits for a free notice place is the model's own choice (log 34), as it is that any of the four STATE commands
refuses a STATE record so (log 20). -/
def Obligations.WrongLengthIsMalformed : Prop :=
  (∀ (s : State) (r : Record),
    let t : Out := .next { s with records := tableDone s r .malformed {} }
    (AtTable s .tapWrite r → s.store.fade = false → r.body.length < 4 ∨ r.body.length ≠ 4 + 16 * field2 r.body 2 →
      exec .tapWrite s = t) ∧
    (AtTable s .tapClear r → s.store.fade = false → r.body.length ≠ 4 → exec .tapClear s = t) ∧
    (AtTable s .copyActive r → s.store.fade = false → r.body.length ≠ 0 → exec .copyActive s = t) ∧
    (AtTable s .swap r → s.store.swap = none → r.body.length ≠ 7 → exec .swap s = t) ∧
    (AtTable s .lineMap r → ¬IsList 3 r → exec .lineMap s = t) ∧
    (AtTable s .outputMap r → ¬IsList 3 r → exec .outputMap s = t) ∧
    (AtTable s .memorySetup r → s.mem.state.holdsSetup = false → r.body.length ≠ 3 → exec .memorySetup s = t)) ∧
  (∀ (s : State) (r : Record),
    let t : Out := .next { s with records := liveDone s r .malformed {} }
    (AtLive s .tapGain r → ¬IsList 4 r → exec .tapGain s = t) ∧
    (AtLive s .masterGain r → ¬IsList 3 r → exec .masterGain s = t) ∧
    (AtLive s .override r → r.body.length < 4 → exec .override s = t) ∧
    (AtLive s .guardSet r → ¬IsList 9 r → exec .guardSet s = t) ∧
    (AtLive s .guardRelease r → ¬IsList 2 r → exec .guardRelease s = t) ∧
    (AtLive s .generatorSet r → ¬IsList 9 r → exec .generatorSet s = t) ∧
    (AtLive s .generatorLoad r → ¬IsList 4 r → exec .generatorLoad s = t) ∧
    (AtLive s .rampSet r → r.body.length ≠ 2 → exec .rampSet s = t) ∧
    (AtLive s .cancelSwap r → r.body.length ≠ 0 → exec .cancelSwap s = t) ∧
    (AtLive s .statusRead r → s.records.notices.length < 8 → r.body.length ≠ 1 → exec .statusRead s = t) ∧
    (AtLive s .state r → r.body.length ≠ 1 ∨ (r.body.length = 1 ∧ 4 ≤ byteAt r.body 0) →
      exec .stateMute s = t ∧ exec .stateRun s = t ∧ exec .stateQuiesce s = t ∧ exec .stateWake s = t)) ∧
  ∀ (s : State) (r : Record) (rest : List Record), s.resetPin = false → s.records.restarts = r :: rest → r.body ≠ [] →
    exec .restart s = .next { s with
      records := { s.records with restarts := rest }.complete s.noticeBlock r.tag r.op r.notify .malformed {} }

/-! ### Node states, STATUS-READ and RESTART -/

/-- A MUTE in RUN takes the node to MUTING, retargets every master ramp to 0, moves the record to the awaiting-mute list
and begins the drain at once where every ramp is idle at 0; in MUTING it joins the list, or completes BUSY when the list
holds four; in MUTED it completes DONE; in QUIESCENT it is refused with ORDER. -/
def Obligations.MuteSilencesTheNode : Prop :=
  ∀ (s : State) (r : Record), AtLive s .state r → r.body.length = 1 → byteAt r.body 0 = 1 →
    (s.records.node = .run → s.records.drain = none → ∃ t, exec .stateMute s = .next t ∧
      t.ramps = { s.ramps with masters := tab 16 fun c =>
        (s.ramps.masters.getD c ⟨0, 0, 1, 1⟩).retarget 0 (2 ^ s.ramps.unitA) (2 ^ s.ramps.unitB) } ∧
      t.records = { s.records with
        live := s.records.live.drop 1, node := .muting
        awaitingMute := s.records.awaitingMute ++ [⟨r.tag, r.notify⟩]
        drain := t.records.drain } ∧
      (t.records.drain = if ∀ m ∈ t.ramps.masters, SilentRamp m then some 0 else none) ∧
      t = { s with ramps := t.ramps, records := t.records }) ∧
    (s.records.node = .muting → s.records.awaitingMute.length < 4 → exec .stateMute s = .next { s with
      records := { s.records with
        live := s.records.live.drop 1, awaitingMute := s.records.awaitingMute ++ [⟨r.tag, r.notify⟩] } }) ∧
    (s.records.node = .muting → 4 ≤ s.records.awaitingMute.length →
      exec .stateMute s = .next { s with records := liveDone s r .busy {} }) ∧
    (s.records.node = .muted → exec .stateMute s = .next { s with records := liveDone s r .done {} }) ∧
    (s.records.node = .quiescent → exec .stateMute s = .next { s with records := liveDone s r .order {} })

/-- In MUTING a boundary counts toward a drain that has begun, and the second takes the node to MUTED and empties the
awaiting-mute list, whose records complete DONE among the boundary's notices; without a drain, the snapshot of a pass begins
one when every master ramp is idle at 0. -/
def Obligations.DrainTakesTheNodeToMuted : Prop :=
  ∀ (f : Frame) (g : Bool) (s : State), AtBoundary s f → s.records.node = .muting →
    ∃ t, exec (.frameArrival f g) s = .next t ∧
      (s.records.drain = some 0 → t.records.node = .muting ∧ t.records.drain = some 1 ∧
        t.records.awaitingMute = s.records.awaitingMute) ∧
      (∀ k, s.records.drain = some (k + 1) → t.records.node = .muted ∧ t.records.drain = none ∧
        t.records.awaitingMute = [] ∧ ∀ m ∈ s.records.awaitingMute, m.notify = true →
          Notice.completion m.tag Op.state.code .done {} f.block ∈ boundaryNotices s f g) ∧
      (s.records.drain = none → f.block = s.link.block + 1 → s.mem.state = .ready → t.records.node = .muting ∧
        t.records.drain = if ∀ m ∈ t.ramps.masters, SilentRamp m then some 0 else none)

/-- A RUN in MUTED or MUTING takes the node to RUN and retargets every master ramp to its channel's set gain; in MUTING
the records that await the mute complete CANCELLED first; in RUN it changes nothing; in QUIESCENT it is refused with
ORDER. -/
def Obligations.RunRaisesTheMasters : Prop :=
  ∀ (s : State) (r : Record), AtLive s .state r → r.body.length = 1 → byteAt r.body 0 = 0 →
    (s.records.node = .muted ∨ s.records.node = .muting → ∃ t, exec .stateRun s = .next t ∧
      t.ramps.masters = (tab 16 fun c => (s.ramps.masters.getD c ⟨0, 0, 1, 1⟩).retarget
        (s.store.channel c).setGain.toNat (2 ^ s.ramps.unitA) (2 ^ s.ramps.unitB)) ∧
      t.ramps = { s.ramps with masters := t.ramps.masters } ∧
      t.records.node = .run ∧ t.records.drain = none ∧ t.records.live = s.records.live.drop 1 ∧
      (s.records.node = .muted → t.records = liveDone { s with records := { s.records with node := .run, drain := none } }
        r .done {}) ∧
      (s.records.node = .muting → t.records.awaitingMute = [] ∧
        t.records = (s.records.awaitingMute.foldl
          (fun (q : Records) m => q.queueNotice (.completion m.tag Op.state.code .cancelled {} s.noticeBlock))
          { s.records with
            node := .run, drain := none, awaitingMute := [], live := s.records.live.drop 1 }).complete
              s.noticeBlock r.tag r.op r.notify .done {}) ∧
      t = { s with ramps := t.ramps, records := t.records }) ∧
    (s.records.node = .run → exec .stateRun s = .next { s with records := liveDone s r .done {} }) ∧
    (s.records.node = .quiescent → exec .stateRun s = .next { s with records := liveDone s r .order {} })

/-- A QUIESCE in MUTED takes the node to QUIESCENT and sets the self-refresh request: from READY entry begins, elsewhere the
request is kept; in any other node state it is refused with ORDER. A WAKE in QUIESCENT takes the node to MUTED, sets the
floor to the block in progress and clears the self-refresh request: an entry is called off, HELD goes on to LEAVING, other
states are kept, and the controller goes on; in any other node state it completes DONE and changes nothing. What an entry
called off during its entry command leaves is the model's reading (log 17). That a refresh in service when DRAINING ends is
one of those that SETTING serves is the model's reading (log 18). -/
def Obligations.QuiesceAndWakeMoveTheMemory : Prop :=
  (∀ (s : State) (r : Record), AtLive s .state r → r.body.length = 1 → byteAt r.body 0 = 2 →
     (s.records.node = .muted → ∃ t, exec .stateQuiesce s = .next t ∧ t.mem.selfRefresh = true ∧
       GoesOn { s.mem with selfRefresh := true, state := if s.mem.state = .ready then .entering else s.mem.state } t ∧
       t.records = liveDone { s with records := { s.records with node := .quiescent } } r .done { written := 1 } ∧
       t = { s with mem := t.mem, records := t.records }) ∧
     (s.records.node ≠ .muted → exec .stateQuiesce s = .next { s with records := liveDone s r .order {} })) ∧
  (∀ (s : State) (r : Record), AtLive s .state r → r.body.length = 1 → byteAt r.body 0 = 3 →
     (s.records.node = .quiescent → ∃ t, exec .stateWake s = .next t ∧ t.mem.selfRefresh = false ∧
       Woken s t ∧
       t.lines = { s.lines with floor := if s.link.state = .locked then s.link.block else s.lines.floor } ∧
       t.records = liveDone { s with records := { s.records with node := .muted } } r .done { written := 1 } ∧
       t = { s with mem := t.mem, lines := t.lines, records := t.records }) ∧
     (s.records.node ≠ .quiescent → exec .stateWake s = .next { s with records := liveDone s r .done {} }))

/-- A STATUS-READ waits while the notice queue is full; otherwise the STATUS notice, 237 bytes formed from the state as it
stands, is queued, the overflow flag is cleared and, with the clear-counters flag, the counters are then set to 0, the
current cut run excepted. The bytes are laid out as Table 39 gives. That a STATUS-READ of a wrong length waits so too is the
model's own choice (log 34). So is that the bits to which Table 39 gives no meaning are 0 (log 40). -/
def Obligations.StatusReadAnswers : Prop :=
  (∀ (s : State) (r : Record), AtLive s .statusRead r → 8 ≤ s.records.notices.length → exec .statusRead s = .next s) ∧
  (∀ (s : State) (r : Record), AtLive s .statusRead r → s.records.notices.length < 8 → r.body.length = 1 →
    ∃ t, exec .statusRead s = .next t ∧
      t.records = { s.records with
        live := s.records.live.drop 1, overflow := false
        notices := s.records.notices ++ [.status r.tag s.statusBody] } ∧
      ((r.body.getD 0 0).getLsbD 0 = false → t = { s with records := t.records }) ∧
      ((r.body.getD 0 0).getLsbD 0 = true → t.out = { s.out with saturation := List.replicate 16 0 } ∧
        t.tap = { s.tap with cutCount := 0 } ∧
        t.link = { s.link with damagedFrames := 0, missingFrames := 0, lossEvents := 0, damagedCells := 0 } ∧
        t = { s with records := t.records, out := t.out, tap := t.tap, link := t.link })) ∧
  ∀ s : State, StatusLayout s s.statusBody ∧ UnitsReported s s.statusBody

/-- A RESTART without a body returns every block to the values of Table 43 and queues the RESTARTED notice as the first of
the fresh queue; the link keeps its state, its numbering and its cells, the floor takes the block in progress, the pass is
abandoned, and the memory keeps its parameters, queue and content: an entry is called off, HELD goes on to LEAVING, any
other state is kept, and the controller goes on. That the write stages of every ending pass are dropped too is the model's
reading of R44, R57 and R58 (log 19), as is what an entry called off during its entry command leaves (log 17), and that a
FRAME silence change that waits is cleared with the flags is its reading of R122 (log 21). Where no RESTART waits, the
command changes nothing, which is the model's own choice (log 2, log 4). That a refresh in service when DRAINING ends is one
of those that SETTING serves is the model's reading (log 18). -/
def Obligations.RestartClearsTheNode : Prop :=
  (∀ s : State, s.records.restarts = [] → exec .restart s = .next s) ∧
  ∀ (s : State) (r : Record) (rest : List Record), s.resetPin = false → PassMatchesState s →
    s.records.restarts = r :: rest → r.body = [] → ∃ t, exec .restart s = .next t ∧
      t.records = { Records.reset with restarts := rest, notices := [.restarted r.tag s.noticeBlock] } ∧
      t.link = { s.link with damagedFrames := 0, missingFrames := 0, lossEvents := 0, damagedCells := 0 } ∧
      t.store = Store.reset ∧ t.ramps = Ramps.reset ∧ t.gens = List.replicate 4 Generator.reset ∧
      t.lines = ⟨List.replicate 64 .none, if s.link.state = .locked then s.link.block else s.lines.floor⟩ ∧
      t.tap.state = .idle ∧ t.tap.pass = none ∧ t.tap.acc = clearedAccumulators ∧ t.tap.cursor = ⟨0, 0⟩ ∧
      t.tap.cutCount = 0 ∧ t.tap.cutRun = 0 ∧ t.tap.ending = (abandonedPasses s).filter (stillEnding s.mem.queue) ∧
      t.out.filling = OutBuffer.zeros ∧ t.out.insert = OutBuffer.zeros ∧
      t.out.groups = List.replicate 4 GuardGroup.reset ∧ t.out.silence = List.replicate 16 false ∧
      t.out.silencePending = List.replicate 16 none ∧ t.out.silenceNext = List.replicate 16 none ∧
      t.out.saturation = List.replicate 16 0 ∧ t.out.copy = s.out.copy ∧ t.mem.selfRefresh = false ∧ Woken s t ∧
      t.dram = s.dram ∧ t.position = s.position ∧ t.linkOut = s.linkOut ∧ t.pending = s.pending

/-! ### Invariants -/

/-- Every step keeps the delay memory in canonical form, which is the model's own form of it (log 7). -/
def Obligations.StepKeepsMemoryCanonical : Prop :=
  ∀ s t : State, MemoryCanonical s → step s = .next t → MemoryCanonical t

/-- Every step keeps the queues and the owed-refresh count within their bounds. -/
def Obligations.StepKeepsQueuesBounded : Prop :=
  ∀ s t : State, QueuesBounded s → step s = .next t → QueuesBounded t

/-- Every step keeps the four generators legal, and the four guard groups with their settings and counts in range. -/
def Obligations.StepKeepsGeneratorsLegal : Prop :=
  (∀ s t : State, GeneratorsLegal s → step s = .next t → GeneratorsLegal t) ∧
  ∀ s t : State, GuardsLegal s → step s = .next t → GuardsLegal t

/-- Every step keeps the master ramps idle at 0 in MUTED and QUIESCENT, and the self-refresh request with QUIESCENT. -/
def Obligations.StepKeepsMutedSilent : Prop :=
  ∀ s t : State, MutedIsSilent s → step s = .next t → MutedIsSilent t

/-- Every step keeps the output slots of the 16 channels distinct, in the channel table and in its copy. -/
def Obligations.StepKeepsSlotsDistinct : Prop :=
  ∀ s t : State, SlotsDistinct s → step s = .next t → SlotsDistinct t

/-- Every step keeps the banks in their roles: a ramp for each ACTIVE entry of a bank that plays and no other. -/
def Obligations.StepKeepsBanksInRole : Prop :=
  ∀ s t : State, BanksInRole s → step s = .next t → BanksInRole t

/-- Every step keeps the pass state IDLE just when there is no pass, and the refresh timer, and the refreshes that SETTING
still serves, a field of the model's own (log 18), as the memory state has them. -/
def Obligations.StepKeepsPassAndTimer : Prop :=
  ∀ s t : State, PassMatchesState s → TimerFollowsState s → step s = .next t → PassMatchesState t ∧ TimerFollowsState t

/-- Every step keeps the positions of the block in progress filled in order, and as many recorded rows as filled positions.
That the recorded rows are dropped at a loss, a relock and power-on is the model's own choice (log 37), and that the values at
and after a lost frame 0 are recorded in the place of the position is the model's reading (log 13). -/
def Obligations.StepKeepsBlockFilling : Prop :=
  ∀ s t : State, BlockFills s → step s = .next t → BlockFills t

/-- At reset the fields that Table 43 names have its power-on values, and the invariants hold. Of the fields that Table 43
does not name, that no FRAME silence change waits (log 21), that no recorded inserted value stands (log 37), the memory's
listed form (log 7) and the refreshes that SETTING still serves (log 18) are the model's own. -/
def Obligations.InvariantsHoldAtReset : Prop :=
  AtPowerOn State.reset ∧ MemoryCanonical State.reset ∧ QueuesBounded State.reset ∧ GeneratorsLegal State.reset ∧
  GuardsLegal State.reset ∧ MutedIsSilent State.reset ∧ SlotsDistinct State.reset ∧ BanksInRole State.reset ∧
  PassMatchesState State.reset ∧ TimerFollowsState State.reset ∧ BlockFills State.reset
end

