-- ==== Sys2Proof/Laws/Entries.lean ====
section
/-! SUPPORT. The entries of a record taken in turn: what one entry keeps, all of them keep. -/

namespace Sys2Proof.Machine

/-- A property that every entry keeps is kept by the whole list. -/
theorem takeEntries_inv {σ : Type} {P : σ → Prop} {f : σ → List Byte → σ × Mark} (h : ∀ x e, P x → P (f x e).1)
    (es : List (List Byte)) (i : Nat) (x : σ) (t : Tally) (hx : P x) : P (takeEntries f es i x t).1 := by
  induction es generalizing i x t with
  | nil => exact hx
  | cons e es ih => exact ih _ _ _ (h x e hx)

/-- A list with no entry changes nothing. -/
@[simp] theorem takeEntries_nil {σ : Type} (f : σ → List Byte → σ × Mark) (i : Nat) (x : σ) (t : Tally) :
    takeEntries f [] i x t = (x, t) := rfl

/-- The first entry is taken, and then the others, counted from the next index. -/
@[simp] theorem takeEntries_cons {σ : Type} (f : σ → List Byte → σ × Mark) (e : List Byte) (es : List (List Byte)) (i : Nat)
    (x : σ) (t : Tally) : takeEntries f (e :: es) i x t = takeEntries f es (i + 1) (f x e).1 (t.add i (f x e).2) := rfl

/-- What is left after the entries is what the entries leave one after another, whatever is counted. -/
theorem takeEntries_fst {σ : Type} (f : σ → List Byte → σ × Mark) (es : List (List Byte)) (i : Nat) (x : σ) (t : Tally) :
    (takeEntries f es i x t).1 = es.foldl (fun x e => (f x e).1) x := by
  induction es generalizing i x t with
  | nil => rfl
  | cons e es ih => exact ih _ _ _

end Sys2Proof.Machine
end

