-- ==== Sys2Proof/Laws/State.lean ====
section
/-! SUPPORT. What each block update leaves: one lemma per field per update. -/

namespace Sys2Proof.Machine

section
variable (s : State) (x : Link)

@[simp] theorem State.withLink_pending : (s.withLink x).pending = s.pending := rfl
@[simp] theorem State.withLink_resetPin : (s.withLink x).resetPin = s.resetPin := rfl
@[simp] theorem State.withLink_position : (s.withLink x).position = s.position := rfl
@[simp] theorem State.withLink_linkOut : (s.withLink x).linkOut = s.linkOut := rfl
@[simp] theorem State.withLink_link : (s.withLink x).link = x := rfl
@[simp] theorem State.withLink_records : (s.withLink x).records = s.records := rfl
@[simp] theorem State.withLink_store : (s.withLink x).store = s.store := rfl
@[simp] theorem State.withLink_lines : (s.withLink x).lines = s.lines := rfl
@[simp] theorem State.withLink_tap : (s.withLink x).tap = s.tap := rfl
@[simp] theorem State.withLink_ramps : (s.withLink x).ramps = s.ramps := rfl
@[simp] theorem State.withLink_gens : (s.withLink x).gens = s.gens := rfl
@[simp] theorem State.withLink_out : (s.withLink x).out = s.out := rfl
@[simp] theorem State.withLink_mem : (s.withLink x).mem = s.mem := rfl
@[simp] theorem State.withLink_dram : (s.withLink x).dram = s.dram := rfl
@[simp] theorem State.withLink_powerCycle : (s.withLink x).powerCycle = s.powerCycle := rfl
@[simp] theorem State.withLink_passSerial : (s.withLink x).passSerial = s.passSerial := rfl

end

section
variable (s : State) (x : Records)

@[simp] theorem State.withRecords_pending : (s.withRecords x).pending = s.pending := rfl
@[simp] theorem State.withRecords_resetPin : (s.withRecords x).resetPin = s.resetPin := rfl
@[simp] theorem State.withRecords_position : (s.withRecords x).position = s.position := rfl
@[simp] theorem State.withRecords_linkOut : (s.withRecords x).linkOut = s.linkOut := rfl
@[simp] theorem State.withRecords_link : (s.withRecords x).link = s.link := rfl
@[simp] theorem State.withRecords_records : (s.withRecords x).records = x := rfl
@[simp] theorem State.withRecords_store : (s.withRecords x).store = s.store := rfl
@[simp] theorem State.withRecords_lines : (s.withRecords x).lines = s.lines := rfl
@[simp] theorem State.withRecords_tap : (s.withRecords x).tap = s.tap := rfl
@[simp] theorem State.withRecords_ramps : (s.withRecords x).ramps = s.ramps := rfl
@[simp] theorem State.withRecords_gens : (s.withRecords x).gens = s.gens := rfl
@[simp] theorem State.withRecords_out : (s.withRecords x).out = s.out := rfl
@[simp] theorem State.withRecords_mem : (s.withRecords x).mem = s.mem := rfl
@[simp] theorem State.withRecords_dram : (s.withRecords x).dram = s.dram := rfl
@[simp] theorem State.withRecords_powerCycle : (s.withRecords x).powerCycle = s.powerCycle := rfl
@[simp] theorem State.withRecords_passSerial : (s.withRecords x).passSerial = s.passSerial := rfl

end

section
variable (s : State) (x : Store)

@[simp] theorem State.withStore_pending : (s.withStore x).pending = s.pending := rfl
@[simp] theorem State.withStore_resetPin : (s.withStore x).resetPin = s.resetPin := rfl
@[simp] theorem State.withStore_position : (s.withStore x).position = s.position := rfl
@[simp] theorem State.withStore_linkOut : (s.withStore x).linkOut = s.linkOut := rfl
@[simp] theorem State.withStore_link : (s.withStore x).link = s.link := rfl
@[simp] theorem State.withStore_records : (s.withStore x).records = s.records := rfl
@[simp] theorem State.withStore_store : (s.withStore x).store = x := rfl
@[simp] theorem State.withStore_lines : (s.withStore x).lines = s.lines := rfl
@[simp] theorem State.withStore_tap : (s.withStore x).tap = s.tap := rfl
@[simp] theorem State.withStore_ramps : (s.withStore x).ramps = s.ramps := rfl
@[simp] theorem State.withStore_gens : (s.withStore x).gens = s.gens := rfl
@[simp] theorem State.withStore_out : (s.withStore x).out = s.out := rfl
@[simp] theorem State.withStore_mem : (s.withStore x).mem = s.mem := rfl
@[simp] theorem State.withStore_dram : (s.withStore x).dram = s.dram := rfl
@[simp] theorem State.withStore_powerCycle : (s.withStore x).powerCycle = s.powerCycle := rfl
@[simp] theorem State.withStore_passSerial : (s.withStore x).passSerial = s.passSerial := rfl

end

section
variable (s : State) (x : Lines)

@[simp] theorem State.withLines_pending : (s.withLines x).pending = s.pending := rfl
@[simp] theorem State.withLines_resetPin : (s.withLines x).resetPin = s.resetPin := rfl
@[simp] theorem State.withLines_position : (s.withLines x).position = s.position := rfl
@[simp] theorem State.withLines_linkOut : (s.withLines x).linkOut = s.linkOut := rfl
@[simp] theorem State.withLines_link : (s.withLines x).link = s.link := rfl
@[simp] theorem State.withLines_records : (s.withLines x).records = s.records := rfl
@[simp] theorem State.withLines_store : (s.withLines x).store = s.store := rfl
@[simp] theorem State.withLines_lines : (s.withLines x).lines = x := rfl
@[simp] theorem State.withLines_tap : (s.withLines x).tap = s.tap := rfl
@[simp] theorem State.withLines_ramps : (s.withLines x).ramps = s.ramps := rfl
@[simp] theorem State.withLines_gens : (s.withLines x).gens = s.gens := rfl
@[simp] theorem State.withLines_out : (s.withLines x).out = s.out := rfl
@[simp] theorem State.withLines_mem : (s.withLines x).mem = s.mem := rfl
@[simp] theorem State.withLines_dram : (s.withLines x).dram = s.dram := rfl
@[simp] theorem State.withLines_powerCycle : (s.withLines x).powerCycle = s.powerCycle := rfl
@[simp] theorem State.withLines_passSerial : (s.withLines x).passSerial = s.passSerial := rfl

end

section
variable (s : State) (x : TapEngine)

@[simp] theorem State.withTap_pending : (s.withTap x).pending = s.pending := rfl
@[simp] theorem State.withTap_resetPin : (s.withTap x).resetPin = s.resetPin := rfl
@[simp] theorem State.withTap_position : (s.withTap x).position = s.position := rfl
@[simp] theorem State.withTap_linkOut : (s.withTap x).linkOut = s.linkOut := rfl
@[simp] theorem State.withTap_link : (s.withTap x).link = s.link := rfl
@[simp] theorem State.withTap_records : (s.withTap x).records = s.records := rfl
@[simp] theorem State.withTap_store : (s.withTap x).store = s.store := rfl
@[simp] theorem State.withTap_lines : (s.withTap x).lines = s.lines := rfl
@[simp] theorem State.withTap_tap : (s.withTap x).tap = x := rfl
@[simp] theorem State.withTap_ramps : (s.withTap x).ramps = s.ramps := rfl
@[simp] theorem State.withTap_gens : (s.withTap x).gens = s.gens := rfl
@[simp] theorem State.withTap_out : (s.withTap x).out = s.out := rfl
@[simp] theorem State.withTap_mem : (s.withTap x).mem = s.mem := rfl
@[simp] theorem State.withTap_dram : (s.withTap x).dram = s.dram := rfl
@[simp] theorem State.withTap_powerCycle : (s.withTap x).powerCycle = s.powerCycle := rfl
@[simp] theorem State.withTap_passSerial : (s.withTap x).passSerial = s.passSerial := rfl

end

section
variable (s : State) (x : Ramps)

@[simp] theorem State.withRamps_pending : (s.withRamps x).pending = s.pending := rfl
@[simp] theorem State.withRamps_resetPin : (s.withRamps x).resetPin = s.resetPin := rfl
@[simp] theorem State.withRamps_position : (s.withRamps x).position = s.position := rfl
@[simp] theorem State.withRamps_linkOut : (s.withRamps x).linkOut = s.linkOut := rfl
@[simp] theorem State.withRamps_link : (s.withRamps x).link = s.link := rfl
@[simp] theorem State.withRamps_records : (s.withRamps x).records = s.records := rfl
@[simp] theorem State.withRamps_store : (s.withRamps x).store = s.store := rfl
@[simp] theorem State.withRamps_lines : (s.withRamps x).lines = s.lines := rfl
@[simp] theorem State.withRamps_tap : (s.withRamps x).tap = s.tap := rfl
@[simp] theorem State.withRamps_ramps : (s.withRamps x).ramps = x := rfl
@[simp] theorem State.withRamps_gens : (s.withRamps x).gens = s.gens := rfl
@[simp] theorem State.withRamps_out : (s.withRamps x).out = s.out := rfl
@[simp] theorem State.withRamps_mem : (s.withRamps x).mem = s.mem := rfl
@[simp] theorem State.withRamps_dram : (s.withRamps x).dram = s.dram := rfl
@[simp] theorem State.withRamps_powerCycle : (s.withRamps x).powerCycle = s.powerCycle := rfl
@[simp] theorem State.withRamps_passSerial : (s.withRamps x).passSerial = s.passSerial := rfl

end

section
variable (s : State) (x : List Generator)

@[simp] theorem State.withGens_pending : (s.withGens x).pending = s.pending := rfl
@[simp] theorem State.withGens_resetPin : (s.withGens x).resetPin = s.resetPin := rfl
@[simp] theorem State.withGens_position : (s.withGens x).position = s.position := rfl
@[simp] theorem State.withGens_linkOut : (s.withGens x).linkOut = s.linkOut := rfl
@[simp] theorem State.withGens_link : (s.withGens x).link = s.link := rfl
@[simp] theorem State.withGens_records : (s.withGens x).records = s.records := rfl
@[simp] theorem State.withGens_store : (s.withGens x).store = s.store := rfl
@[simp] theorem State.withGens_lines : (s.withGens x).lines = s.lines := rfl
@[simp] theorem State.withGens_tap : (s.withGens x).tap = s.tap := rfl
@[simp] theorem State.withGens_ramps : (s.withGens x).ramps = s.ramps := rfl
@[simp] theorem State.withGens_gens : (s.withGens x).gens = x := rfl
@[simp] theorem State.withGens_out : (s.withGens x).out = s.out := rfl
@[simp] theorem State.withGens_mem : (s.withGens x).mem = s.mem := rfl
@[simp] theorem State.withGens_dram : (s.withGens x).dram = s.dram := rfl
@[simp] theorem State.withGens_powerCycle : (s.withGens x).powerCycle = s.powerCycle := rfl
@[simp] theorem State.withGens_passSerial : (s.withGens x).passSerial = s.passSerial := rfl

end

section
variable (s : State) (x : Output)

@[simp] theorem State.withOut_pending : (s.withOut x).pending = s.pending := rfl
@[simp] theorem State.withOut_resetPin : (s.withOut x).resetPin = s.resetPin := rfl
@[simp] theorem State.withOut_position : (s.withOut x).position = s.position := rfl
@[simp] theorem State.withOut_linkOut : (s.withOut x).linkOut = s.linkOut := rfl
@[simp] theorem State.withOut_link : (s.withOut x).link = s.link := rfl
@[simp] theorem State.withOut_records : (s.withOut x).records = s.records := rfl
@[simp] theorem State.withOut_store : (s.withOut x).store = s.store := rfl
@[simp] theorem State.withOut_lines : (s.withOut x).lines = s.lines := rfl
@[simp] theorem State.withOut_tap : (s.withOut x).tap = s.tap := rfl
@[simp] theorem State.withOut_ramps : (s.withOut x).ramps = s.ramps := rfl
@[simp] theorem State.withOut_gens : (s.withOut x).gens = s.gens := rfl
@[simp] theorem State.withOut_out : (s.withOut x).out = x := rfl
@[simp] theorem State.withOut_mem : (s.withOut x).mem = s.mem := rfl
@[simp] theorem State.withOut_dram : (s.withOut x).dram = s.dram := rfl
@[simp] theorem State.withOut_powerCycle : (s.withOut x).powerCycle = s.powerCycle := rfl
@[simp] theorem State.withOut_passSerial : (s.withOut x).passSerial = s.passSerial := rfl

end

section
variable (s : State) (x : MemController)

@[simp] theorem State.withMem_pending : (s.withMem x).pending = s.pending := rfl
@[simp] theorem State.withMem_resetPin : (s.withMem x).resetPin = s.resetPin := rfl
@[simp] theorem State.withMem_position : (s.withMem x).position = s.position := rfl
@[simp] theorem State.withMem_linkOut : (s.withMem x).linkOut = s.linkOut := rfl
@[simp] theorem State.withMem_link : (s.withMem x).link = s.link := rfl
@[simp] theorem State.withMem_records : (s.withMem x).records = s.records := rfl
@[simp] theorem State.withMem_store : (s.withMem x).store = s.store := rfl
@[simp] theorem State.withMem_lines : (s.withMem x).lines = s.lines := rfl
@[simp] theorem State.withMem_tap : (s.withMem x).tap = s.tap := rfl
@[simp] theorem State.withMem_ramps : (s.withMem x).ramps = s.ramps := rfl
@[simp] theorem State.withMem_gens : (s.withMem x).gens = s.gens := rfl
@[simp] theorem State.withMem_out : (s.withMem x).out = s.out := rfl
@[simp] theorem State.withMem_mem : (s.withMem x).mem = x := rfl
@[simp] theorem State.withMem_dram : (s.withMem x).dram = s.dram := rfl
@[simp] theorem State.withMem_powerCycle : (s.withMem x).powerCycle = s.powerCycle := rfl
@[simp] theorem State.withMem_passSerial : (s.withMem x).passSerial = s.passSerial := rfl

end

section
variable (s : State) (x : List Host.Cell)

@[simp] theorem State.withDram_pending : (s.withDram x).pending = s.pending := rfl
@[simp] theorem State.withDram_resetPin : (s.withDram x).resetPin = s.resetPin := rfl
@[simp] theorem State.withDram_position : (s.withDram x).position = s.position := rfl
@[simp] theorem State.withDram_linkOut : (s.withDram x).linkOut = s.linkOut := rfl
@[simp] theorem State.withDram_link : (s.withDram x).link = s.link := rfl
@[simp] theorem State.withDram_records : (s.withDram x).records = s.records := rfl
@[simp] theorem State.withDram_store : (s.withDram x).store = s.store := rfl
@[simp] theorem State.withDram_lines : (s.withDram x).lines = s.lines := rfl
@[simp] theorem State.withDram_tap : (s.withDram x).tap = s.tap := rfl
@[simp] theorem State.withDram_ramps : (s.withDram x).ramps = s.ramps := rfl
@[simp] theorem State.withDram_gens : (s.withDram x).gens = s.gens := rfl
@[simp] theorem State.withDram_out : (s.withDram x).out = s.out := rfl
@[simp] theorem State.withDram_mem : (s.withDram x).mem = s.mem := rfl
@[simp] theorem State.withDram_dram : (s.withDram x).dram = x := rfl
@[simp] theorem State.withDram_powerCycle : (s.withDram x).powerCycle = s.powerCycle := rfl
@[simp] theorem State.withDram_passSerial : (s.withDram x).passSerial = s.passSerial := rfl

end

section
variable (s : State) (x : Option Frame)

@[simp] theorem State.withLinkOut_pending : (s.withLinkOut x).pending = s.pending := rfl
@[simp] theorem State.withLinkOut_resetPin : (s.withLinkOut x).resetPin = s.resetPin := rfl
@[simp] theorem State.withLinkOut_position : (s.withLinkOut x).position = s.position := rfl
@[simp] theorem State.withLinkOut_linkOut : (s.withLinkOut x).linkOut = x := rfl
@[simp] theorem State.withLinkOut_link : (s.withLinkOut x).link = s.link := rfl
@[simp] theorem State.withLinkOut_records : (s.withLinkOut x).records = s.records := rfl
@[simp] theorem State.withLinkOut_store : (s.withLinkOut x).store = s.store := rfl
@[simp] theorem State.withLinkOut_lines : (s.withLinkOut x).lines = s.lines := rfl
@[simp] theorem State.withLinkOut_tap : (s.withLinkOut x).tap = s.tap := rfl
@[simp] theorem State.withLinkOut_ramps : (s.withLinkOut x).ramps = s.ramps := rfl
@[simp] theorem State.withLinkOut_gens : (s.withLinkOut x).gens = s.gens := rfl
@[simp] theorem State.withLinkOut_out : (s.withLinkOut x).out = s.out := rfl
@[simp] theorem State.withLinkOut_mem : (s.withLinkOut x).mem = s.mem := rfl
@[simp] theorem State.withLinkOut_dram : (s.withLinkOut x).dram = s.dram := rfl
@[simp] theorem State.withLinkOut_powerCycle : (s.withLinkOut x).powerCycle = s.powerCycle := rfl
@[simp] theorem State.withLinkOut_passSerial : (s.withLinkOut x).passSerial = s.passSerial := rfl

end

end Sys2Proof.Machine
end

