-- ==== Sys2Proof/Laws/Keeps.lean ====
section
/-! SUPPORT. What each shared operation leaves as it stood: one lemma per operation, a conjunction that simp takes apart. -/

namespace Sys2Proof.Machine

variable (s : State)

@[simp] theorem State.floorToProgress_keeps :
    (s.floorToProgress).pending = s.pending ∧ (s.floorToProgress).resetPin = s.resetPin ∧
    (s.floorToProgress).position = s.position ∧ (s.floorToProgress).linkOut = s.linkOut ∧
    (s.floorToProgress).link = s.link ∧ (s.floorToProgress).records = s.records ∧
    (s.floorToProgress).store = s.store ∧ (s.floorToProgress).tap = s.tap ∧ (s.floorToProgress).ramps = s.ramps ∧
    (s.floorToProgress).gens = s.gens ∧ (s.floorToProgress).out = s.out ∧ (s.floorToProgress).mem = s.mem ∧
    (s.floorToProgress).dram = s.dram ∧ (s.floorToProgress).powerCycle = s.powerCycle ∧
    (s.floorToProgress).passSerial = s.passSerial := by
  refine ⟨?_, ?_, ?_, ?_, ?_, ?_, ?_, ?_, ?_, ?_, ?_, ?_, ?_, ?_, ?_⟩ <;> rfl

@[simp] theorem State.queueNotice_keeps (n : Notice) :
    (s.queueNotice n).pending = s.pending ∧ (s.queueNotice n).resetPin = s.resetPin ∧
    (s.queueNotice n).position = s.position ∧ (s.queueNotice n).linkOut = s.linkOut ∧
    (s.queueNotice n).link = s.link ∧ (s.queueNotice n).store = s.store ∧ (s.queueNotice n).lines = s.lines ∧
    (s.queueNotice n).tap = s.tap ∧ (s.queueNotice n).ramps = s.ramps ∧ (s.queueNotice n).gens = s.gens ∧
    (s.queueNotice n).out = s.out ∧ (s.queueNotice n).mem = s.mem ∧ (s.queueNotice n).dram = s.dram ∧
    (s.queueNotice n).powerCycle = s.powerCycle ∧ (s.queueNotice n).passSerial = s.passSerial := by
  refine ⟨?_, ?_, ?_, ?_, ?_, ?_, ?_, ?_, ?_, ?_, ?_, ?_, ?_, ?_, ?_⟩ <;> rfl

@[simp] theorem State.queueNotices_keeps (ns : List Notice) :
    (s.queueNotices ns).pending = s.pending ∧ (s.queueNotices ns).resetPin = s.resetPin ∧
    (s.queueNotices ns).position = s.position ∧ (s.queueNotices ns).linkOut = s.linkOut ∧
    (s.queueNotices ns).link = s.link ∧ (s.queueNotices ns).store = s.store ∧
    (s.queueNotices ns).lines = s.lines ∧ (s.queueNotices ns).tap = s.tap ∧ (s.queueNotices ns).ramps = s.ramps ∧
    (s.queueNotices ns).gens = s.gens ∧ (s.queueNotices ns).out = s.out ∧ (s.queueNotices ns).mem = s.mem ∧
    (s.queueNotices ns).dram = s.dram ∧ (s.queueNotices ns).powerCycle = s.powerCycle ∧
    (s.queueNotices ns).passSerial = s.passSerial := by
  refine ⟨?_, ?_, ?_, ?_, ?_, ?_, ?_, ?_, ?_, ?_, ?_, ?_, ?_, ?_, ?_⟩ <;> rfl

@[simp] theorem State.complete_keeps (tag : Half) (op : Op) (notify : Bool) (o : RecordOutcome) (c : Counts) :
    (s.complete tag op notify o c).pending = s.pending ∧ (s.complete tag op notify o c).resetPin = s.resetPin ∧
    (s.complete tag op notify o c).position = s.position ∧ (s.complete tag op notify o c).linkOut = s.linkOut ∧
    (s.complete tag op notify o c).link = s.link ∧ (s.complete tag op notify o c).store = s.store ∧
    (s.complete tag op notify o c).lines = s.lines ∧ (s.complete tag op notify o c).tap = s.tap ∧
    (s.complete tag op notify o c).ramps = s.ramps ∧ (s.complete tag op notify o c).gens = s.gens ∧
    (s.complete tag op notify o c).out = s.out ∧ (s.complete tag op notify o c).mem = s.mem ∧
    (s.complete tag op notify o c).dram = s.dram ∧ (s.complete tag op notify o c).powerCycle = s.powerCycle ∧
    (s.complete tag op notify o c).passSerial = s.passSerial := by
  refine ⟨?_, ?_, ?_, ?_, ?_, ?_, ?_, ?_, ?_, ?_, ?_, ?_, ?_, ?_, ?_⟩ <;> rfl

@[simp] theorem State.popTable_keeps :
    (s.popTable).pending = s.pending ∧ (s.popTable).resetPin = s.resetPin ∧ (s.popTable).position = s.position ∧
    (s.popTable).linkOut = s.linkOut ∧ (s.popTable).link = s.link ∧ (s.popTable).store = s.store ∧
    (s.popTable).lines = s.lines ∧ (s.popTable).tap = s.tap ∧ (s.popTable).ramps = s.ramps ∧
    (s.popTable).gens = s.gens ∧ (s.popTable).out = s.out ∧ (s.popTable).mem = s.mem ∧
    (s.popTable).dram = s.dram ∧ (s.popTable).powerCycle = s.powerCycle ∧ (s.popTable).passSerial = s.passSerial := by
  refine ⟨?_, ?_, ?_, ?_, ?_, ?_, ?_, ?_, ?_, ?_, ?_, ?_, ?_, ?_, ?_⟩ <;> rfl

@[simp] theorem State.popLive_keeps :
    (s.popLive).pending = s.pending ∧ (s.popLive).resetPin = s.resetPin ∧ (s.popLive).position = s.position ∧
    (s.popLive).linkOut = s.linkOut ∧ (s.popLive).link = s.link ∧ (s.popLive).store = s.store ∧
    (s.popLive).lines = s.lines ∧ (s.popLive).tap = s.tap ∧ (s.popLive).ramps = s.ramps ∧
    (s.popLive).gens = s.gens ∧ (s.popLive).out = s.out ∧ (s.popLive).mem = s.mem ∧ (s.popLive).dram = s.dram ∧
    (s.popLive).powerCycle = s.powerCycle ∧ (s.popLive).passSerial = s.passSerial := by
  refine ⟨?_, ?_, ?_, ?_, ?_, ?_, ?_, ?_, ?_, ?_, ?_, ?_, ?_, ?_, ?_⟩ <;> rfl

@[simp] theorem State.completeTable_keeps (r : Record) (o : RecordOutcome) (c : Counts) :
    (s.completeTable r o c).pending = s.pending ∧ (s.completeTable r o c).resetPin = s.resetPin ∧
    (s.completeTable r o c).position = s.position ∧ (s.completeTable r o c).linkOut = s.linkOut ∧
    (s.completeTable r o c).link = s.link ∧ (s.completeTable r o c).store = s.store ∧
    (s.completeTable r o c).lines = s.lines ∧ (s.completeTable r o c).tap = s.tap ∧
    (s.completeTable r o c).ramps = s.ramps ∧ (s.completeTable r o c).gens = s.gens ∧
    (s.completeTable r o c).out = s.out ∧ (s.completeTable r o c).mem = s.mem ∧
    (s.completeTable r o c).dram = s.dram ∧ (s.completeTable r o c).powerCycle = s.powerCycle ∧
    (s.completeTable r o c).passSerial = s.passSerial := by
  refine ⟨?_, ?_, ?_, ?_, ?_, ?_, ?_, ?_, ?_, ?_, ?_, ?_, ?_, ?_, ?_⟩ <;> rfl

@[simp] theorem State.completeLive_keeps (r : Record) (o : RecordOutcome) (c : Counts) :
    (s.completeLive r o c).pending = s.pending ∧ (s.completeLive r o c).resetPin = s.resetPin ∧
    (s.completeLive r o c).position = s.position ∧ (s.completeLive r o c).linkOut = s.linkOut ∧
    (s.completeLive r o c).link = s.link ∧ (s.completeLive r o c).store = s.store ∧
    (s.completeLive r o c).lines = s.lines ∧ (s.completeLive r o c).tap = s.tap ∧
    (s.completeLive r o c).ramps = s.ramps ∧ (s.completeLive r o c).gens = s.gens ∧
    (s.completeLive r o c).out = s.out ∧ (s.completeLive r o c).mem = s.mem ∧
    (s.completeLive r o c).dram = s.dram ∧ (s.completeLive r o c).powerCycle = s.powerCycle ∧
    (s.completeLive r o c).passSerial = s.passSerial := by
  refine ⟨?_, ?_, ?_, ?_, ?_, ?_, ?_, ?_, ?_, ?_, ?_, ?_, ?_, ?_, ?_⟩ <;> rfl

@[simp] theorem State.sampleGuardB_keeps (line : Bool) :
    (s.sampleGuardB line).pending = s.pending ∧ (s.sampleGuardB line).resetPin = s.resetPin ∧
    (s.sampleGuardB line).position = s.position ∧ (s.sampleGuardB line).linkOut = s.linkOut ∧
    (s.sampleGuardB line).link = s.link ∧ (s.sampleGuardB line).store = s.store ∧
    (s.sampleGuardB line).lines = s.lines ∧ (s.sampleGuardB line).tap = s.tap ∧
    (s.sampleGuardB line).ramps = s.ramps ∧ (s.sampleGuardB line).gens = s.gens ∧
    (s.sampleGuardB line).mem = s.mem ∧ (s.sampleGuardB line).dram = s.dram ∧
    (s.sampleGuardB line).powerCycle = s.powerCycle ∧ (s.sampleGuardB line).passSerial = s.passSerial := by
  refine ⟨?_, ?_, ?_, ?_, ?_, ?_, ?_, ?_, ?_, ?_, ?_, ?_, ?_, ?_⟩ <;> rfl

@[simp] theorem State.releaseA_keeps (tag : Half) (k : Fin 4) (n : Nat) :
    (s.releaseA tag k n).pending = s.pending ∧ (s.releaseA tag k n).resetPin = s.resetPin ∧
    (s.releaseA tag k n).position = s.position ∧ (s.releaseA tag k n).linkOut = s.linkOut ∧
    (s.releaseA tag k n).link = s.link ∧ (s.releaseA tag k n).store = s.store ∧
    (s.releaseA tag k n).lines = s.lines ∧ (s.releaseA tag k n).tap = s.tap ∧
    (s.releaseA tag k n).ramps = s.ramps ∧ (s.releaseA tag k n).gens = s.gens ∧ (s.releaseA tag k n).mem = s.mem ∧
    (s.releaseA tag k n).dram = s.dram ∧ (s.releaseA tag k n).powerCycle = s.powerCycle ∧
    (s.releaseA tag k n).passSerial = s.passSerial := by
  unfold State.releaseA
  dsimp only
  (repeat' split) <;> simp

@[simp] theorem State.releaseB_keeps (tag : Half) (k : Fin 4) :
    (s.releaseB tag k).pending = s.pending ∧ (s.releaseB tag k).resetPin = s.resetPin ∧
    (s.releaseB tag k).position = s.position ∧ (s.releaseB tag k).linkOut = s.linkOut ∧
    (s.releaseB tag k).link = s.link ∧ (s.releaseB tag k).store = s.store ∧ (s.releaseB tag k).lines = s.lines ∧
    (s.releaseB tag k).tap = s.tap ∧ (s.releaseB tag k).ramps = s.ramps ∧ (s.releaseB tag k).gens = s.gens ∧
    (s.releaseB tag k).mem = s.mem ∧ (s.releaseB tag k).dram = s.dram ∧
    (s.releaseB tag k).powerCycle = s.powerCycle ∧ (s.releaseB tag k).passSerial = s.passSerial := by
  unfold State.releaseB
  dsimp only
  (repeat' split) <;> simp

@[simp] theorem State.advanceMem_keeps :
    (s.advanceMem).pending = s.pending ∧ (s.advanceMem).resetPin = s.resetPin ∧
    (s.advanceMem).position = s.position ∧ (s.advanceMem).linkOut = s.linkOut ∧ (s.advanceMem).link = s.link ∧
    (s.advanceMem).records = s.records ∧ (s.advanceMem).store = s.store ∧ (s.advanceMem).lines = s.lines ∧
    (s.advanceMem).tap = s.tap ∧ (s.advanceMem).ramps = s.ramps ∧ (s.advanceMem).gens = s.gens ∧
    (s.advanceMem).out = s.out ∧ (s.advanceMem).dram = s.dram ∧ (s.advanceMem).powerCycle = s.powerCycle ∧
    (s.advanceMem).passSerial = s.passSerial := by
  refine ⟨?_, ?_, ?_, ?_, ?_, ?_, ?_, ?_, ?_, ?_, ?_, ?_, ?_, ?_, ?_⟩ <;> rfl

@[simp] theorem State.completeSetup_keeps :
    (s.completeSetup).pending = s.pending ∧ (s.completeSetup).resetPin = s.resetPin ∧
    (s.completeSetup).position = s.position ∧ (s.completeSetup).linkOut = s.linkOut ∧
    (s.completeSetup).link = s.link ∧ (s.completeSetup).store = s.store ∧ (s.completeSetup).lines = s.lines ∧
    (s.completeSetup).tap = s.tap ∧ (s.completeSetup).ramps = s.ramps ∧ (s.completeSetup).gens = s.gens ∧
    (s.completeSetup).out = s.out ∧ (s.completeSetup).mem = s.mem ∧ (s.completeSetup).dram = s.dram ∧
    (s.completeSetup).powerCycle = s.powerCycle ∧ (s.completeSetup).passSerial = s.passSerial := by
  unfold State.completeSetup
  (repeat' split) <;> simp

@[simp] theorem State.reapEnding_keeps :
    (s.reapEnding).pending = s.pending ∧ (s.reapEnding).resetPin = s.resetPin ∧
    (s.reapEnding).position = s.position ∧ (s.reapEnding).linkOut = s.linkOut ∧ (s.reapEnding).link = s.link ∧
    (s.reapEnding).records = s.records ∧ (s.reapEnding).store = s.store ∧ (s.reapEnding).lines = s.lines ∧
    (s.reapEnding).ramps = s.ramps ∧ (s.reapEnding).gens = s.gens ∧ (s.reapEnding).out = s.out ∧
    (s.reapEnding).mem = s.mem ∧ (s.reapEnding).dram = s.dram ∧ (s.reapEnding).powerCycle = s.powerCycle ∧
    (s.reapEnding).passSerial = s.passSerial := by
  refine ⟨?_, ?_, ?_, ?_, ?_, ?_, ?_, ?_, ?_, ?_, ?_, ?_, ?_, ?_, ?_⟩ <;> rfl

@[simp] theorem State.formOutput_keeps (p : Pass) :
    (s.formOutput p).pending = s.pending ∧ (s.formOutput p).resetPin = s.resetPin ∧
    (s.formOutput p).position = s.position ∧ (s.formOutput p).linkOut = s.linkOut ∧
    (s.formOutput p).link = s.link ∧ (s.formOutput p).store = s.store ∧ (s.formOutput p).lines = s.lines ∧
    (s.formOutput p).tap = s.tap ∧ (s.formOutput p).ramps = s.ramps ∧ (s.formOutput p).gens = s.gens ∧
    (s.formOutput p).mem = s.mem ∧ (s.formOutput p).dram = s.dram ∧ (s.formOutput p).powerCycle = s.powerCycle ∧
    (s.formOutput p).passSerial = s.passSerial := by
  refine ⟨?_, ?_, ?_, ?_, ?_, ?_, ?_, ?_, ?_, ?_, ?_, ?_, ?_, ?_⟩ <;> rfl

@[simp] theorem State.reportFade_keeps (p : Pass) (b : Bool) :
    (s.reportFade p b).pending = s.pending ∧ (s.reportFade p b).resetPin = s.resetPin ∧
    (s.reportFade p b).position = s.position ∧ (s.reportFade p b).linkOut = s.linkOut ∧
    (s.reportFade p b).link = s.link ∧ (s.reportFade p b).records = s.records ∧
    (s.reportFade p b).lines = s.lines ∧ (s.reportFade p b).tap = s.tap ∧ (s.reportFade p b).ramps = s.ramps ∧
    (s.reportFade p b).gens = s.gens ∧ (s.reportFade p b).out = s.out ∧ (s.reportFade p b).mem = s.mem ∧
    (s.reportFade p b).dram = s.dram ∧ (s.reportFade p b).powerCycle = s.powerCycle ∧
    (s.reportFade p b).passSerial = s.passSerial := by
  unfold State.reportFade
  (repeat' split) <;> simp

@[simp] theorem State.finishPass_keeps (p : Pass) (w : Option WriteStage) (b : Bool) :
    (s.finishPass p w b).pending = s.pending ∧ (s.finishPass p w b).resetPin = s.resetPin ∧
    (s.finishPass p w b).position = s.position ∧ (s.finishPass p w b).linkOut = s.linkOut ∧
    (s.finishPass p w b).link = s.link ∧ (s.finishPass p w b).lines = s.lines ∧
    (s.finishPass p w b).ramps = s.ramps ∧ (s.finishPass p w b).gens = s.gens ∧ (s.finishPass p w b).mem = s.mem ∧
    (s.finishPass p w b).dram = s.dram ∧ (s.finishPass p w b).powerCycle = s.powerCycle ∧
    (s.finishPass p w b).passSerial = s.passSerial := by
  unfold State.finishPass
  (repeat' split) <;> simp

@[simp] theorem State.finishUncut_keeps (p : Pass) (b : Bool) :
    (s.finishUncut p b).pending = s.pending ∧ (s.finishUncut p b).resetPin = s.resetPin ∧
    (s.finishUncut p b).position = s.position ∧ (s.finishUncut p b).linkOut = s.linkOut ∧
    (s.finishUncut p b).link = s.link ∧ (s.finishUncut p b).lines = s.lines ∧
    (s.finishUncut p b).ramps = s.ramps ∧ (s.finishUncut p b).gens = s.gens ∧ (s.finishUncut p b).mem = s.mem ∧
    (s.finishUncut p b).dram = s.dram ∧ (s.finishUncut p b).powerCycle = s.powerCycle ∧
    (s.finishUncut p b).passSerial = s.passSerial := by
  unfold State.finishUncut
  (repeat' split) <;> simp

@[simp] theorem State.countCut_keeps (p : Pass) :
    (s.countCut p).pending = s.pending ∧ (s.countCut p).resetPin = s.resetPin ∧
    (s.countCut p).position = s.position ∧ (s.countCut p).linkOut = s.linkOut ∧ (s.countCut p).link = s.link ∧
    (s.countCut p).store = s.store ∧ (s.countCut p).lines = s.lines ∧ (s.countCut p).ramps = s.ramps ∧
    (s.countCut p).gens = s.gens ∧ (s.countCut p).out = s.out ∧ (s.countCut p).mem = s.mem ∧
    (s.countCut p).dram = s.dram ∧ (s.countCut p).powerCycle = s.powerCycle ∧
    (s.countCut p).passSerial = s.passSerial := by
  unfold State.countCut
  dsimp only
  (repeat' split) <;> simp

@[simp] theorem State.closePass_keeps (b : Bool) :
    (s.closePass b).pending = s.pending ∧ (s.closePass b).resetPin = s.resetPin ∧
    (s.closePass b).position = s.position ∧ (s.closePass b).linkOut = s.linkOut ∧ (s.closePass b).link = s.link ∧
    (s.closePass b).lines = s.lines ∧ (s.closePass b).ramps = s.ramps ∧ (s.closePass b).gens = s.gens ∧
    (s.closePass b).mem = s.mem ∧ (s.closePass b).dram = s.dram ∧ (s.closePass b).powerCycle = s.powerCycle ∧
    (s.closePass b).passSerial = s.passSerial := by
  unfold State.closePass
  (repeat' split) <;> simp

@[simp] theorem State.partialSaturation_keeps :
    (s.partialSaturation).pending = s.pending ∧ (s.partialSaturation).resetPin = s.resetPin ∧
    (s.partialSaturation).position = s.position ∧ (s.partialSaturation).linkOut = s.linkOut ∧
    (s.partialSaturation).link = s.link ∧ (s.partialSaturation).records = s.records ∧
    (s.partialSaturation).store = s.store ∧ (s.partialSaturation).lines = s.lines ∧
    (s.partialSaturation).tap = s.tap ∧ (s.partialSaturation).ramps = s.ramps ∧
    (s.partialSaturation).gens = s.gens ∧ (s.partialSaturation).mem = s.mem ∧
    (s.partialSaturation).dram = s.dram ∧ (s.partialSaturation).powerCycle = s.powerCycle ∧
    (s.partialSaturation).passSerial = s.passSerial := by
  unfold State.partialSaturation
  (repeat' split) <;> simp

@[simp] theorem State.abandonPass_keeps :
    (s.abandonPass).pending = s.pending ∧ (s.abandonPass).resetPin = s.resetPin ∧
    (s.abandonPass).position = s.position ∧ (s.abandonPass).linkOut = s.linkOut ∧ (s.abandonPass).link = s.link ∧
    (s.abandonPass).records = s.records ∧ (s.abandonPass).store = s.store ∧ (s.abandonPass).lines = s.lines ∧
    (s.abandonPass).ramps = s.ramps ∧ (s.abandonPass).gens = s.gens ∧ (s.abandonPass).mem = s.mem ∧
    (s.abandonPass).dram = s.dram ∧ (s.abandonPass).powerCycle = s.powerCycle ∧
    (s.abandonPass).passSerial = s.passSerial := by
  unfold State.abandonPass
  (repeat' split) <;> simp

@[simp] theorem State.stepAllRamps_keeps :
    (s.stepAllRamps).pending = s.pending ∧ (s.stepAllRamps).resetPin = s.resetPin ∧
    (s.stepAllRamps).position = s.position ∧ (s.stepAllRamps).linkOut = s.linkOut ∧
    (s.stepAllRamps).link = s.link ∧ (s.stepAllRamps).records = s.records ∧ (s.stepAllRamps).store = s.store ∧
    (s.stepAllRamps).lines = s.lines ∧ (s.stepAllRamps).tap = s.tap ∧ (s.stepAllRamps).gens = s.gens ∧
    (s.stepAllRamps).out = s.out ∧ (s.stepAllRamps).mem = s.mem ∧ (s.stepAllRamps).dram = s.dram ∧
    (s.stepAllRamps).powerCycle = s.powerCycle ∧ (s.stepAllRamps).passSerial = s.passSerial := by
  refine ⟨?_, ?_, ?_, ?_, ?_, ?_, ?_, ?_, ?_, ?_, ?_, ?_, ?_, ?_, ?_⟩ <;> rfl

@[simp] theorem State.muteCheck_keeps :
    (s.muteCheck).pending = s.pending ∧ (s.muteCheck).resetPin = s.resetPin ∧
    (s.muteCheck).position = s.position ∧ (s.muteCheck).linkOut = s.linkOut ∧ (s.muteCheck).link = s.link ∧
    (s.muteCheck).store = s.store ∧ (s.muteCheck).lines = s.lines ∧ (s.muteCheck).tap = s.tap ∧
    (s.muteCheck).ramps = s.ramps ∧ (s.muteCheck).gens = s.gens ∧ (s.muteCheck).out = s.out ∧
    (s.muteCheck).mem = s.mem ∧ (s.muteCheck).dram = s.dram ∧ (s.muteCheck).powerCycle = s.powerCycle ∧
    (s.muteCheck).passSerial = s.passSerial := by
  unfold State.muteCheck
  (repeat' split) <;> simp

@[simp] theorem State.beginPass_keeps (b : Block) :
    (s.beginPass b).pending = s.pending ∧ (s.beginPass b).resetPin = s.resetPin ∧
    (s.beginPass b).position = s.position ∧ (s.beginPass b).linkOut = s.linkOut ∧ (s.beginPass b).link = s.link ∧
    (s.beginPass b).store = s.store ∧ (s.beginPass b).lines = s.lines ∧ (s.beginPass b).gens = s.gens ∧
    (s.beginPass b).out = s.out ∧ (s.beginPass b).mem = s.mem ∧ (s.beginPass b).dram = s.dram ∧
    (s.beginPass b).powerCycle = s.powerCycle := by
  unfold State.beginPass
  (repeat' split) <;> simp

@[simp] theorem State.beginNoPass_keeps (n : Block) :
    (s.beginNoPass n).pending = s.pending ∧ (s.beginNoPass n).resetPin = s.resetPin ∧
    (s.beginNoPass n).position = s.position ∧ (s.beginNoPass n).linkOut = s.linkOut ∧
    (s.beginNoPass n).link = s.link ∧ (s.beginNoPass n).records = s.records ∧ (s.beginNoPass n).store = s.store ∧
    (s.beginNoPass n).ramps = s.ramps ∧ (s.beginNoPass n).gens = s.gens ∧ (s.beginNoPass n).out = s.out ∧
    (s.beginNoPass n).mem = s.mem ∧ (s.beginNoPass n).dram = s.dram ∧
    (s.beginNoPass n).powerCycle = s.powerCycle ∧ (s.beginNoPass n).passSerial = s.passSerial := by
  refine ⟨?_, ?_, ?_, ?_, ?_, ?_, ?_, ?_, ?_, ?_, ?_, ?_, ?_, ?_⟩ <;> rfl

@[simp] theorem State.endFade_keeps :
    (s.endFade).pending = s.pending ∧ (s.endFade).resetPin = s.resetPin ∧ (s.endFade).position = s.position ∧
    (s.endFade).linkOut = s.linkOut ∧ (s.endFade).link = s.link ∧ (s.endFade).records = s.records ∧
    (s.endFade).lines = s.lines ∧ (s.endFade).tap = s.tap ∧ (s.endFade).gens = s.gens ∧ (s.endFade).out = s.out ∧
    (s.endFade).mem = s.mem ∧ (s.endFade).dram = s.dram ∧ (s.endFade).powerCycle = s.powerCycle ∧
    (s.endFade).passSerial = s.passSerial := by
  refine ⟨?_, ?_, ?_, ?_, ?_, ?_, ?_, ?_, ?_, ?_, ?_, ?_, ?_, ?_⟩ <;> rfl

@[simp] theorem State.exchangeBanks_keeps (f : Fade) :
    (s.exchangeBanks f).pending = s.pending ∧ (s.exchangeBanks f).resetPin = s.resetPin ∧
    (s.exchangeBanks f).position = s.position ∧ (s.exchangeBanks f).linkOut = s.linkOut ∧
    (s.exchangeBanks f).link = s.link ∧ (s.exchangeBanks f).records = s.records ∧
    (s.exchangeBanks f).lines = s.lines ∧ (s.exchangeBanks f).tap = s.tap ∧ (s.exchangeBanks f).gens = s.gens ∧
    (s.exchangeBanks f).out = s.out ∧ (s.exchangeBanks f).mem = s.mem ∧ (s.exchangeBanks f).dram = s.dram ∧
    (s.exchangeBanks f).powerCycle = s.powerCycle ∧ (s.exchangeBanks f).passSerial = s.passSerial := by
  refine ⟨?_, ?_, ?_, ?_, ?_, ?_, ?_, ?_, ?_, ?_, ?_, ?_, ?_, ?_⟩ <;> rfl

@[simp] theorem State.takeSwap_keeps (w : PendingSwap) (o : RecordOutcome) (n : Block) :
    (s.takeSwap w o n).pending = s.pending ∧ (s.takeSwap w o n).resetPin = s.resetPin ∧
    (s.takeSwap w o n).position = s.position ∧ (s.takeSwap w o n).linkOut = s.linkOut ∧
    (s.takeSwap w o n).link = s.link ∧ (s.takeSwap w o n).lines = s.lines ∧ (s.takeSwap w o n).tap = s.tap ∧
    (s.takeSwap w o n).gens = s.gens ∧ (s.takeSwap w o n).out = s.out ∧ (s.takeSwap w o n).mem = s.mem ∧
    (s.takeSwap w o n).dram = s.dram ∧ (s.takeSwap w o n).powerCycle = s.powerCycle ∧
    (s.takeSwap w o n).passSerial = s.passSerial := by
  unfold State.takeSwap
  (repeat' split) <;> simp

@[simp] theorem State.fadeCheck_keeps :
    (s.fadeCheck).pending = s.pending ∧ (s.fadeCheck).resetPin = s.resetPin ∧
    (s.fadeCheck).position = s.position ∧ (s.fadeCheck).linkOut = s.linkOut ∧ (s.fadeCheck).link = s.link ∧
    (s.fadeCheck).records = s.records ∧ (s.fadeCheck).lines = s.lines ∧ (s.fadeCheck).tap = s.tap ∧
    (s.fadeCheck).gens = s.gens ∧ (s.fadeCheck).out = s.out ∧ (s.fadeCheck).mem = s.mem ∧
    (s.fadeCheck).dram = s.dram ∧ (s.fadeCheck).powerCycle = s.powerCycle ∧
    (s.fadeCheck).passSerial = s.passSerial := by
  unfold State.fadeCheck
  (repeat' split) <;> simp

@[simp] theorem State.stepGenerators_keeps (n : Block) :
    (s.stepGenerators n).pending = s.pending ∧ (s.stepGenerators n).resetPin = s.resetPin ∧
    (s.stepGenerators n).position = s.position ∧ (s.stepGenerators n).linkOut = s.linkOut ∧
    (s.stepGenerators n).link = s.link ∧ (s.stepGenerators n).store = s.store ∧
    (s.stepGenerators n).lines = s.lines ∧ (s.stepGenerators n).tap = s.tap ∧
    (s.stepGenerators n).ramps = s.ramps ∧ (s.stepGenerators n).out = s.out ∧ (s.stepGenerators n).mem = s.mem ∧
    (s.stepGenerators n).dram = s.dram ∧ (s.stepGenerators n).powerCycle = s.powerCycle ∧
    (s.stepGenerators n).passSerial = s.passSerial := by
  unfold State.stepGenerators
  (repeat' split) <;> simp

@[simp] theorem State.completeMutes_keeps (o : RecordOutcome) :
    (s.completeMutes o).pending = s.pending ∧ (s.completeMutes o).resetPin = s.resetPin ∧
    (s.completeMutes o).position = s.position ∧ (s.completeMutes o).linkOut = s.linkOut ∧
    (s.completeMutes o).link = s.link ∧ (s.completeMutes o).store = s.store ∧
    (s.completeMutes o).lines = s.lines ∧ (s.completeMutes o).tap = s.tap ∧ (s.completeMutes o).ramps = s.ramps ∧
    (s.completeMutes o).gens = s.gens ∧ (s.completeMutes o).out = s.out ∧ (s.completeMutes o).mem = s.mem ∧
    (s.completeMutes o).dram = s.dram ∧ (s.completeMutes o).powerCycle = s.powerCycle ∧
    (s.completeMutes o).passSerial = s.passSerial := by
  refine ⟨?_, ?_, ?_, ?_, ?_, ?_, ?_, ?_, ?_, ?_, ?_, ?_, ?_, ?_, ?_⟩ <;> rfl

@[simp] theorem State.drainAtBoundary_keeps :
    (s.drainAtBoundary).pending = s.pending ∧ (s.drainAtBoundary).resetPin = s.resetPin ∧
    (s.drainAtBoundary).position = s.position ∧ (s.drainAtBoundary).linkOut = s.linkOut ∧
    (s.drainAtBoundary).link = s.link ∧ (s.drainAtBoundary).store = s.store ∧
    (s.drainAtBoundary).lines = s.lines ∧ (s.drainAtBoundary).tap = s.tap ∧ (s.drainAtBoundary).ramps = s.ramps ∧
    (s.drainAtBoundary).gens = s.gens ∧ (s.drainAtBoundary).out = s.out ∧ (s.drainAtBoundary).mem = s.mem ∧
    (s.drainAtBoundary).dram = s.dram ∧ (s.drainAtBoundary).powerCycle = s.powerCycle ∧
    (s.drainAtBoundary).passSerial = s.passSerial := by
  unfold State.drainAtBoundary
  (repeat' split) <;> simp

@[simp] theorem State.withAssembly_keeps (a : Option Assembly) :
    (s.withAssembly a).pending = s.pending ∧ (s.withAssembly a).resetPin = s.resetPin ∧
    (s.withAssembly a).position = s.position ∧ (s.withAssembly a).linkOut = s.linkOut ∧
    (s.withAssembly a).link = s.link ∧ (s.withAssembly a).store = s.store ∧ (s.withAssembly a).lines = s.lines ∧
    (s.withAssembly a).tap = s.tap ∧ (s.withAssembly a).ramps = s.ramps ∧ (s.withAssembly a).gens = s.gens ∧
    (s.withAssembly a).out = s.out ∧ (s.withAssembly a).mem = s.mem ∧ (s.withAssembly a).dram = s.dram ∧
    (s.withAssembly a).powerCycle = s.powerCycle ∧ (s.withAssembly a).passSerial = s.passSerial := by
  refine ⟨?_, ?_, ?_, ?_, ?_, ?_, ?_, ?_, ?_, ?_, ?_, ?_, ?_, ?_, ?_⟩ <;> rfl

@[simp] theorem State.abandonAssembly_keeps :
    (s.abandonAssembly).pending = s.pending ∧ (s.abandonAssembly).resetPin = s.resetPin ∧
    (s.abandonAssembly).position = s.position ∧ (s.abandonAssembly).linkOut = s.linkOut ∧
    (s.abandonAssembly).link = s.link ∧ (s.abandonAssembly).store = s.store ∧
    (s.abandonAssembly).lines = s.lines ∧ (s.abandonAssembly).tap = s.tap ∧ (s.abandonAssembly).ramps = s.ramps ∧
    (s.abandonAssembly).gens = s.gens ∧ (s.abandonAssembly).out = s.out ∧ (s.abandonAssembly).mem = s.mem ∧
    (s.abandonAssembly).dram = s.dram ∧ (s.abandonAssembly).powerCycle = s.powerCycle ∧
    (s.abandonAssembly).passSerial = s.passSerial := by
  unfold State.abandonAssembly
  (repeat' split) <;> simp

@[simp] theorem State.refuseRecord_keeps (tag : Half) (code : Byte) (n : Nat) :
    (s.refuseRecord tag code n).pending = s.pending ∧ (s.refuseRecord tag code n).resetPin = s.resetPin ∧
    (s.refuseRecord tag code n).position = s.position ∧ (s.refuseRecord tag code n).linkOut = s.linkOut ∧
    (s.refuseRecord tag code n).link = s.link ∧ (s.refuseRecord tag code n).store = s.store ∧
    (s.refuseRecord tag code n).lines = s.lines ∧ (s.refuseRecord tag code n).tap = s.tap ∧
    (s.refuseRecord tag code n).ramps = s.ramps ∧ (s.refuseRecord tag code n).gens = s.gens ∧
    (s.refuseRecord tag code n).out = s.out ∧ (s.refuseRecord tag code n).mem = s.mem ∧
    (s.refuseRecord tag code n).dram = s.dram ∧ (s.refuseRecord tag code n).powerCycle = s.powerCycle ∧
    (s.refuseRecord tag code n).passSerial = s.passSerial := by
  refine ⟨?_, ?_, ?_, ?_, ?_, ?_, ?_, ?_, ?_, ?_, ?_, ?_, ?_, ?_, ?_⟩ <;> rfl

@[simp] theorem State.enqueue_keeps (r : Record) :
    (s.enqueue r).pending = s.pending ∧ (s.enqueue r).resetPin = s.resetPin ∧
    (s.enqueue r).position = s.position ∧ (s.enqueue r).linkOut = s.linkOut ∧ (s.enqueue r).link = s.link ∧
    (s.enqueue r).store = s.store ∧ (s.enqueue r).lines = s.lines ∧ (s.enqueue r).tap = s.tap ∧
    (s.enqueue r).ramps = s.ramps ∧ (s.enqueue r).gens = s.gens ∧ (s.enqueue r).out = s.out ∧
    (s.enqueue r).mem = s.mem ∧ (s.enqueue r).dram = s.dram ∧ (s.enqueue r).powerCycle = s.powerCycle ∧
    (s.enqueue r).passSerial = s.passSerial := by
  unfold State.enqueue
  (repeat' split) <;> simp

@[simp] theorem State.testAssembly_keeps (a : Assembly) (i : Nat) (l : Bool) :
    (s.testAssembly a i l).pending = s.pending ∧ (s.testAssembly a i l).resetPin = s.resetPin ∧
    (s.testAssembly a i l).position = s.position ∧ (s.testAssembly a i l).linkOut = s.linkOut ∧
    (s.testAssembly a i l).link = s.link ∧ (s.testAssembly a i l).store = s.store ∧
    (s.testAssembly a i l).lines = s.lines ∧ (s.testAssembly a i l).tap = s.tap ∧
    (s.testAssembly a i l).ramps = s.ramps ∧ (s.testAssembly a i l).gens = s.gens ∧
    (s.testAssembly a i l).out = s.out ∧ (s.testAssembly a i l).mem = s.mem ∧
    (s.testAssembly a i l).dram = s.dram ∧ (s.testAssembly a i l).powerCycle = s.powerCycle ∧
    (s.testAssembly a i l).passSerial = s.passSerial := by
  unfold State.testAssembly
  dsimp only
  (repeat' split) <;> simp

@[simp] theorem State.startAssembly_keeps (g : Fragment) :
    (s.startAssembly g).pending = s.pending ∧ (s.startAssembly g).resetPin = s.resetPin ∧
    (s.startAssembly g).position = s.position ∧ (s.startAssembly g).linkOut = s.linkOut ∧
    (s.startAssembly g).link = s.link ∧ (s.startAssembly g).store = s.store ∧
    (s.startAssembly g).lines = s.lines ∧ (s.startAssembly g).tap = s.tap ∧ (s.startAssembly g).ramps = s.ramps ∧
    (s.startAssembly g).gens = s.gens ∧ (s.startAssembly g).out = s.out ∧ (s.startAssembly g).mem = s.mem ∧
    (s.startAssembly g).dram = s.dram ∧ (s.startAssembly g).powerCycle = s.powerCycle ∧
    (s.startAssembly g).passSerial = s.passSerial := by
  unfold State.startAssembly
  dsimp only
  (repeat' split) <;> simp

@[simp] theorem State.continueAssembly_keeps (g : Fragment) :
    (s.continueAssembly g).pending = s.pending ∧ (s.continueAssembly g).resetPin = s.resetPin ∧
    (s.continueAssembly g).position = s.position ∧ (s.continueAssembly g).linkOut = s.linkOut ∧
    (s.continueAssembly g).link = s.link ∧ (s.continueAssembly g).store = s.store ∧
    (s.continueAssembly g).lines = s.lines ∧ (s.continueAssembly g).tap = s.tap ∧
    (s.continueAssembly g).ramps = s.ramps ∧ (s.continueAssembly g).gens = s.gens ∧
    (s.continueAssembly g).out = s.out ∧ (s.continueAssembly g).mem = s.mem ∧
    (s.continueAssembly g).dram = s.dram ∧ (s.continueAssembly g).powerCycle = s.powerCycle ∧
    (s.continueAssembly g).passSerial = s.passSerial := by
  unfold State.continueAssembly
  (repeat' split) <;> simp

@[simp] theorem State.takeFragment_keeps (g : Fragment) :
    (s.takeFragment g).pending = s.pending ∧ (s.takeFragment g).resetPin = s.resetPin ∧
    (s.takeFragment g).position = s.position ∧ (s.takeFragment g).linkOut = s.linkOut ∧
    (s.takeFragment g).link = s.link ∧ (s.takeFragment g).store = s.store ∧ (s.takeFragment g).lines = s.lines ∧
    (s.takeFragment g).tap = s.tap ∧ (s.takeFragment g).ramps = s.ramps ∧ (s.takeFragment g).gens = s.gens ∧
    (s.takeFragment g).out = s.out ∧ (s.takeFragment g).mem = s.mem ∧ (s.takeFragment g).dram = s.dram ∧
    (s.takeFragment g).powerCycle = s.powerCycle ∧ (s.takeFragment g).passSerial = s.passSerial := by
  unfold State.takeFragment
  (repeat' split) <;> simp

@[simp] theorem State.takeCell_keeps (b : List Byte) :
    (s.takeCell b).pending = s.pending ∧ (s.takeCell b).resetPin = s.resetPin ∧
    (s.takeCell b).position = s.position ∧ (s.takeCell b).linkOut = s.linkOut ∧ (s.takeCell b).link = s.link ∧
    (s.takeCell b).store = s.store ∧ (s.takeCell b).lines = s.lines ∧ (s.takeCell b).tap = s.tap ∧
    (s.takeCell b).ramps = s.ramps ∧ (s.takeCell b).gens = s.gens ∧ (s.takeCell b).out = s.out ∧
    (s.takeCell b).mem = s.mem ∧ (s.takeCell b).dram = s.dram ∧ (s.takeCell b).powerCycle = s.powerCycle ∧
    (s.takeCell b).passSerial = s.passSerial := by
  unfold State.takeCell
  (repeat' split) <;> simp

@[simp] theorem State.handover_keeps :
    (s.handover).pending = s.pending ∧ (s.handover).resetPin = s.resetPin ∧ (s.handover).position = s.position ∧
    (s.handover).linkOut = s.linkOut ∧ (s.handover).store = s.store ∧ (s.handover).lines = s.lines ∧
    (s.handover).tap = s.tap ∧ (s.handover).ramps = s.ramps ∧ (s.handover).gens = s.gens ∧
    (s.handover).out = s.out ∧ (s.handover).mem = s.mem ∧ (s.handover).dram = s.dram ∧
    (s.handover).powerCycle = s.powerCycle ∧ (s.handover).passSerial = s.passSerial := by
  unfold State.handover
  (repeat' split) <;> simp

@[simp] theorem State.takePosition_keeps (f : Option Frame) (bad : Bool) :
    (s.takePosition f bad).pending = s.pending ∧ (s.takePosition f bad).resetPin = s.resetPin ∧
    (s.takePosition f bad).position = s.position ∧ (s.takePosition f bad).store = s.store ∧
    (s.takePosition f bad).lines = s.lines ∧ (s.takePosition f bad).tap = s.tap ∧
    (s.takePosition f bad).ramps = s.ramps ∧ (s.takePosition f bad).gens = s.gens ∧
    (s.takePosition f bad).mem = s.mem ∧ (s.takePosition f bad).dram = s.dram ∧
    (s.takePosition f bad).powerCycle = s.powerCycle ∧ (s.takePosition f bad).passSerial = s.passSerial := by
  unfold State.takePosition
  dsimp only
  (repeat' split) <;> simp

@[simp] theorem State.loseLink_keeps :
    (s.loseLink).pending = s.pending ∧ (s.loseLink).resetPin = s.resetPin ∧ (s.loseLink).position = s.position ∧
    (s.loseLink).records = s.records ∧ (s.loseLink).store = s.store ∧ (s.loseLink).lines = s.lines ∧
    (s.loseLink).ramps = s.ramps ∧ (s.loseLink).gens = s.gens ∧ (s.loseLink).dram = s.dram ∧
    (s.loseLink).powerCycle = s.powerCycle ∧ (s.loseLink).passSerial = s.passSerial := by
  unfold State.loseLink
  (repeat' split) <;> simp

@[simp] theorem State.badPosition_keeps (f : Option Frame) :
    (s.badPosition f).pending = s.pending ∧ (s.badPosition f).resetPin = s.resetPin ∧
    (s.badPosition f).position = s.position ∧ (s.badPosition f).store = s.store ∧
    (s.badPosition f).lines = s.lines ∧ (s.badPosition f).ramps = s.ramps ∧ (s.badPosition f).gens = s.gens ∧
    (s.badPosition f).dram = s.dram ∧ (s.badPosition f).powerCycle = s.powerCycle ∧
    (s.badPosition f).passSerial = s.passSerial := by
  unfold State.badPosition
  dsimp only
  (repeat' split) <;> simp

@[simp] theorem State.placeNotice_keeps (f : Frame) :
    (s.placeNotice f).pending = s.pending ∧ (s.placeNotice f).resetPin = s.resetPin ∧
    (s.placeNotice f).position = s.position ∧ (s.placeNotice f).linkOut = s.linkOut ∧
    (s.placeNotice f).store = s.store ∧ (s.placeNotice f).lines = s.lines ∧ (s.placeNotice f).tap = s.tap ∧
    (s.placeNotice f).ramps = s.ramps ∧ (s.placeNotice f).gens = s.gens ∧ (s.placeNotice f).out = s.out ∧
    (s.placeNotice f).mem = s.mem ∧ (s.placeNotice f).dram = s.dram ∧
    (s.placeNotice f).powerCycle = s.powerCycle ∧ (s.placeNotice f).passSerial = s.passSerial := by
  unfold State.placeNotice
  (repeat' split) <;> simp

@[simp] theorem State.copyChannels_keeps :
    (s.copyChannels).pending = s.pending ∧ (s.copyChannels).resetPin = s.resetPin ∧
    (s.copyChannels).position = s.position ∧ (s.copyChannels).linkOut = s.linkOut ∧
    (s.copyChannels).link = s.link ∧ (s.copyChannels).records = s.records ∧ (s.copyChannels).store = s.store ∧
    (s.copyChannels).lines = s.lines ∧ (s.copyChannels).tap = s.tap ∧ (s.copyChannels).ramps = s.ramps ∧
    (s.copyChannels).gens = s.gens ∧ (s.copyChannels).mem = s.mem ∧ (s.copyChannels).dram = s.dram ∧
    (s.copyChannels).powerCycle = s.powerCycle ∧ (s.copyChannels).passSerial = s.passSerial := by
  refine ⟨?_, ?_, ?_, ?_, ?_, ?_, ?_, ?_, ?_, ?_, ?_, ?_, ?_, ?_, ?_⟩ <;> rfl

@[simp] theorem State.relock_keeps (f : Frame) :
    (s.relock f).pending = s.pending ∧ (s.relock f).resetPin = s.resetPin ∧ (s.relock f).position = s.position ∧
    (s.relock f).store = s.store ∧ (s.relock f).tap = s.tap ∧ (s.relock f).ramps = s.ramps ∧
    (s.relock f).gens = s.gens ∧ (s.relock f).mem = s.mem ∧ (s.relock f).dram = s.dram ∧
    (s.relock f).powerCycle = s.powerCycle ∧ (s.relock f).passSerial = s.passSerial := by
  unfold State.relock
  (repeat' split) <;> simp

@[simp] theorem State.seek_keeps (f : Frame) :
    (s.seek f).pending = s.pending ∧ (s.seek f).resetPin = s.resetPin ∧ (s.seek f).position = s.position ∧
    (s.seek f).store = s.store ∧ (s.seek f).tap = s.tap ∧ (s.seek f).ramps = s.ramps ∧ (s.seek f).gens = s.gens ∧
    (s.seek f).mem = s.mem ∧ (s.seek f).dram = s.dram ∧ (s.seek f).powerCycle = s.powerCycle ∧
    (s.seek f).passSerial = s.passSerial := by
  unfold State.seek
  (repeat' split) <;> simp

@[simp] theorem State.turnBlock_keeps (n : Block) :
    (s.turnBlock n).pending = s.pending ∧ (s.turnBlock n).resetPin = s.resetPin ∧
    (s.turnBlock n).position = s.position ∧ (s.turnBlock n).linkOut = s.linkOut ∧
    (s.turnBlock n).records = s.records ∧ (s.turnBlock n).store = s.store ∧ (s.turnBlock n).lines = s.lines ∧
    (s.turnBlock n).tap = s.tap ∧ (s.turnBlock n).ramps = s.ramps ∧ (s.turnBlock n).gens = s.gens ∧
    (s.turnBlock n).mem = s.mem ∧ (s.turnBlock n).dram = s.dram ∧ (s.turnBlock n).powerCycle = s.powerCycle ∧
    (s.turnBlock n).passSerial = s.passSerial := by
  refine ⟨?_, ?_, ?_, ?_, ?_, ?_, ?_, ?_, ?_, ?_, ?_, ?_, ?_, ?_⟩ <;> rfl

@[simp] theorem State.renumber_keeps (m n : Block) :
    (s.renumber m n).pending = s.pending ∧ (s.renumber m n).resetPin = s.resetPin ∧
    (s.renumber m n).position = s.position ∧ (s.renumber m n).linkOut = s.linkOut ∧
    (s.renumber m n).link = s.link ∧ (s.renumber m n).store = s.store ∧ (s.renumber m n).ramps = s.ramps ∧
    (s.renumber m n).gens = s.gens ∧ (s.renumber m n).mem = s.mem ∧ (s.renumber m n).dram = s.dram ∧
    (s.renumber m n).powerCycle = s.powerCycle ∧ (s.renumber m n).passSerial = s.passSerial := by
  unfold State.renumber
  (repeat' split) <;> simp

@[simp] theorem State.exchangeBuffers_keeps :
    (s.exchangeBuffers).pending = s.pending ∧ (s.exchangeBuffers).resetPin = s.resetPin ∧
    (s.exchangeBuffers).position = s.position ∧ (s.exchangeBuffers).linkOut = s.linkOut ∧
    (s.exchangeBuffers).link = s.link ∧ (s.exchangeBuffers).records = s.records ∧
    (s.exchangeBuffers).store = s.store ∧ (s.exchangeBuffers).lines = s.lines ∧ (s.exchangeBuffers).tap = s.tap ∧
    (s.exchangeBuffers).ramps = s.ramps ∧ (s.exchangeBuffers).gens = s.gens ∧ (s.exchangeBuffers).mem = s.mem ∧
    (s.exchangeBuffers).dram = s.dram ∧ (s.exchangeBuffers).powerCycle = s.powerCycle ∧
    (s.exchangeBuffers).passSerial = s.passSerial := by
  refine ⟨?_, ?_, ?_, ?_, ?_, ?_, ?_, ?_, ?_, ?_, ?_, ?_, ?_, ?_, ?_⟩ <;> rfl

@[simp] theorem State.swapAtBoundary_keeps (served : List (Fin 4)) (n : Block) :
    (s.swapAtBoundary served n).1.pending = s.pending ∧
    (s.swapAtBoundary served n).1.resetPin = s.resetPin ∧
    (s.swapAtBoundary served n).1.position = s.position ∧
    (s.swapAtBoundary served n).1.linkOut = s.linkOut ∧
    (s.swapAtBoundary served n).1.link = s.link ∧
    (s.swapAtBoundary served n).1.lines = s.lines ∧
    (s.swapAtBoundary served n).1.tap = s.tap ∧
    (s.swapAtBoundary served n).1.gens = s.gens ∧
    (s.swapAtBoundary served n).1.out = s.out ∧
    (s.swapAtBoundary served n).1.mem = s.mem ∧
    (s.swapAtBoundary served n).1.dram = s.dram ∧
    (s.swapAtBoundary served n).1.powerCycle = s.powerCycle ∧
    (s.swapAtBoundary served n).1.passSerial = s.passSerial := by
  unfold State.swapAtBoundary
  split <;> [skip; split] <;> simp

@[simp] theorem State.boundary_keeps (b n : Block) (x : Bool) :
    (s.boundary b n x).pending = s.pending ∧ (s.boundary b n x).resetPin = s.resetPin ∧
    (s.boundary b n x).position = s.position ∧ (s.boundary b n x).linkOut = s.linkOut ∧
    (s.boundary b n x).dram = s.dram ∧ (s.boundary b n x).powerCycle = s.powerCycle := by
  unfold State.boundary
  dsimp only
  (repeat' split) <;> simp

@[simp] theorem State.lockedArrival_keeps (f : Frame) :
    (s.lockedArrival f).pending = s.pending ∧ (s.lockedArrival f).resetPin = s.resetPin ∧
    (s.lockedArrival f).position = s.position ∧ (s.lockedArrival f).dram = s.dram ∧
    (s.lockedArrival f).powerCycle = s.powerCycle := by
  unfold State.lockedArrival
  dsimp only
  (repeat' split) <;> simp

@[simp] theorem State.atArrival_keeps (g : Bool) :
    (s.atArrival g).pending = s.pending ∧ (s.atArrival g).resetPin = s.resetPin ∧
    (s.atArrival g).position = s.position ∧ (s.atArrival g).linkOut = s.linkOut ∧ (s.atArrival g).link = s.link ∧
    (s.atArrival g).store = s.store ∧ (s.atArrival g).lines = s.lines ∧ (s.atArrival g).tap = s.tap ∧
    (s.atArrival g).ramps = s.ramps ∧ (s.atArrival g).gens = s.gens ∧ (s.atArrival g).mem = s.mem ∧
    (s.atArrival g).dram = s.dram ∧ (s.atArrival g).powerCycle = s.powerCycle ∧
    (s.atArrival g).passSerial = s.passSerial := by
  refine ⟨?_, ?_, ?_, ?_, ?_, ?_, ?_, ?_, ?_, ?_, ?_, ?_, ?_, ?_⟩ <;> rfl

@[simp] theorem State.takeArrival_keeps (f : Frame) :
    (s.takeArrival f).pending = s.pending ∧ (s.takeArrival f).resetPin = s.resetPin ∧
    (s.takeArrival f).position = s.position ∧ (s.takeArrival f).dram = s.dram ∧
    (s.takeArrival f).powerCycle = s.powerCycle := by
  unfold State.takeArrival
  (repeat' split) <;> simp

@[simp] theorem State.gapExpiry_keeps :
    (s.gapExpiry).pending = s.pending ∧ (s.gapExpiry).resetPin = s.resetPin ∧
    (s.gapExpiry).position = s.position ∧ (s.gapExpiry).store = s.store ∧ (s.gapExpiry).lines = s.lines ∧
    (s.gapExpiry).ramps = s.ramps ∧ (s.gapExpiry).gens = s.gens ∧ (s.gapExpiry).dram = s.dram ∧
    (s.gapExpiry).powerCycle = s.powerCycle ∧ (s.gapExpiry).passSerial = s.passSerial := by
  unfold State.gapExpiry
  (repeat' split) <;> simp

end Sys2Proof.Machine
end

