-- ==== Sys2Proof/Laws/CommandKeeps.lean ====
section
/-! SUPPORT. What each event and each record leaves as it stood: one lemma per operation, a conjunction that simp takes
apart. -/

namespace Sys2Proof.Machine

variable (s : State)

@[simp] theorem State.requestBurst_keeps :
    (s.requestBurst).pending = s.pending ∧ (s.requestBurst).resetPin = s.resetPin ∧
    (s.requestBurst).position = s.position ∧ (s.requestBurst).linkOut = s.linkOut ∧
    (s.requestBurst).link = s.link ∧ (s.requestBurst).records = s.records ∧ (s.requestBurst).store = s.store ∧
    (s.requestBurst).lines = s.lines ∧ (s.requestBurst).ramps = s.ramps ∧ (s.requestBurst).gens = s.gens ∧
    (s.requestBurst).out = s.out ∧ (s.requestBurst).dram = s.dram ∧ (s.requestBurst).powerCycle = s.powerCycle ∧
    (s.requestBurst).passSerial = s.passSerial := by
  unfold State.requestBurst
  dsimp only
  (repeat' split) <;> simp

@[simp] theorem State.access_keeps (q : BurstRequest) :
    (s.access q).pending = s.pending ∧ (s.access q).resetPin = s.resetPin ∧ (s.access q).position = s.position ∧
    (s.access q).linkOut = s.linkOut ∧ (s.access q).link = s.link ∧ (s.access q).records = s.records ∧
    (s.access q).store = s.store ∧ (s.access q).lines = s.lines ∧ (s.access q).ramps = s.ramps ∧
    (s.access q).gens = s.gens ∧ (s.access q).out = s.out ∧ (s.access q).mem = s.mem ∧
    (s.access q).powerCycle = s.powerCycle ∧ (s.access q).passSerial = s.passSerial := by
  unfold State.access
  (repeat' split) <;> simp

@[simp] theorem State.endBurst_keeps :
    (s.endBurst).pending = s.pending ∧ (s.endBurst).resetPin = s.resetPin ∧ (s.endBurst).position = s.position ∧
    (s.endBurst).linkOut = s.linkOut ∧ (s.endBurst).link = s.link ∧ (s.endBurst).records = s.records ∧
    (s.endBurst).store = s.store ∧ (s.endBurst).lines = s.lines ∧ (s.endBurst).ramps = s.ramps ∧
    (s.endBurst).gens = s.gens ∧ (s.endBurst).out = s.out ∧ (s.endBurst).powerCycle = s.powerCycle ∧
    (s.endBurst).passSerial = s.passSerial := by
  unfold State.endBurst
  dsimp only
  (repeat' split) <;> simp

@[simp] theorem State.completeFinishing_keeps :
    (s.completeFinishing).pending = s.pending ∧ (s.completeFinishing).resetPin = s.resetPin ∧
    (s.completeFinishing).position = s.position ∧ (s.completeFinishing).linkOut = s.linkOut ∧
    (s.completeFinishing).link = s.link ∧ (s.completeFinishing).lines = s.lines ∧
    (s.completeFinishing).ramps = s.ramps ∧ (s.completeFinishing).gens = s.gens ∧
    (s.completeFinishing).dram = s.dram ∧ (s.completeFinishing).powerCycle = s.powerCycle ∧
    (s.completeFinishing).passSerial = s.passSerial := by
  unfold State.completeFinishing
  (repeat' split) <;> simp

@[simp] theorem State.refreshExpiry_keeps :
    (s.refreshExpiry).pending = s.pending ∧ (s.refreshExpiry).resetPin = s.resetPin ∧
    (s.refreshExpiry).position = s.position ∧ (s.refreshExpiry).linkOut = s.linkOut ∧
    (s.refreshExpiry).link = s.link ∧ (s.refreshExpiry).records = s.records ∧ (s.refreshExpiry).store = s.store ∧
    (s.refreshExpiry).lines = s.lines ∧ (s.refreshExpiry).tap = s.tap ∧ (s.refreshExpiry).ramps = s.ramps ∧
    (s.refreshExpiry).gens = s.gens ∧ (s.refreshExpiry).out = s.out ∧ (s.refreshExpiry).dram = s.dram ∧
    (s.refreshExpiry).powerCycle = s.powerCycle ∧ (s.refreshExpiry).passSerial = s.passSerial := by
  unfold State.refreshExpiry
  (repeat' split) <;> simp

@[simp] theorem State.endRefresh_keeps :
    (s.endRefresh).pending = s.pending ∧ (s.endRefresh).resetPin = s.resetPin ∧
    (s.endRefresh).position = s.position ∧ (s.endRefresh).linkOut = s.linkOut ∧ (s.endRefresh).link = s.link ∧
    (s.endRefresh).records = s.records ∧ (s.endRefresh).store = s.store ∧ (s.endRefresh).lines = s.lines ∧
    (s.endRefresh).tap = s.tap ∧ (s.endRefresh).ramps = s.ramps ∧ (s.endRefresh).gens = s.gens ∧
    (s.endRefresh).out = s.out ∧ (s.endRefresh).dram = s.dram ∧ (s.endRefresh).powerCycle = s.powerCycle ∧
    (s.endRefresh).passSerial = s.passSerial := by
  unfold State.endRefresh
  (repeat' split) <;> simp

@[simp] theorem State.endInitialization_keeps :
    (s.endInitialization).pending = s.pending ∧ (s.endInitialization).resetPin = s.resetPin ∧
    (s.endInitialization).position = s.position ∧ (s.endInitialization).linkOut = s.linkOut ∧
    (s.endInitialization).link = s.link ∧ (s.endInitialization).store = s.store ∧
    (s.endInitialization).tap = s.tap ∧ (s.endInitialization).ramps = s.ramps ∧
    (s.endInitialization).gens = s.gens ∧ (s.endInitialization).out = s.out ∧
    (s.endInitialization).dram = s.dram ∧ (s.endInitialization).powerCycle = s.powerCycle ∧
    (s.endInitialization).passSerial = s.passSerial := by
  unfold State.endInitialization
  dsimp only
  (repeat' split) <;> simp

@[simp] theorem State.endModeSet_keeps :
    (s.endModeSet).pending = s.pending ∧ (s.endModeSet).resetPin = s.resetPin ∧
    (s.endModeSet).position = s.position ∧ (s.endModeSet).linkOut = s.linkOut ∧ (s.endModeSet).link = s.link ∧
    (s.endModeSet).store = s.store ∧ (s.endModeSet).lines = s.lines ∧ (s.endModeSet).tap = s.tap ∧
    (s.endModeSet).ramps = s.ramps ∧ (s.endModeSet).gens = s.gens ∧ (s.endModeSet).out = s.out ∧
    (s.endModeSet).dram = s.dram ∧ (s.endModeSet).powerCycle = s.powerCycle ∧
    (s.endModeSet).passSerial = s.passSerial := by
  unfold State.endModeSet
  (repeat' split) <;> simp

@[simp] theorem State.endEntering_keeps :
    (s.endEntering).pending = s.pending ∧ (s.endEntering).resetPin = s.resetPin ∧
    (s.endEntering).position = s.position ∧ (s.endEntering).linkOut = s.linkOut ∧ (s.endEntering).link = s.link ∧
    (s.endEntering).records = s.records ∧ (s.endEntering).store = s.store ∧ (s.endEntering).lines = s.lines ∧
    (s.endEntering).tap = s.tap ∧ (s.endEntering).ramps = s.ramps ∧ (s.endEntering).gens = s.gens ∧
    (s.endEntering).out = s.out ∧ (s.endEntering).dram = s.dram ∧ (s.endEntering).powerCycle = s.powerCycle ∧
    (s.endEntering).passSerial = s.passSerial := by
  unfold State.endEntering
  (repeat' split) <;> simp

@[simp] theorem State.endLeaving_keeps :
    (s.endLeaving).pending = s.pending ∧ (s.endLeaving).resetPin = s.resetPin ∧
    (s.endLeaving).position = s.position ∧ (s.endLeaving).linkOut = s.linkOut ∧ (s.endLeaving).link = s.link ∧
    (s.endLeaving).records = s.records ∧ (s.endLeaving).store = s.store ∧ (s.endLeaving).lines = s.lines ∧
    (s.endLeaving).tap = s.tap ∧ (s.endLeaving).ramps = s.ramps ∧ (s.endLeaving).gens = s.gens ∧
    (s.endLeaving).out = s.out ∧ (s.endLeaving).dram = s.dram ∧ (s.endLeaving).powerCycle = s.powerCycle ∧
    (s.endLeaving).passSerial = s.passSerial := by
  unfold State.endLeaving
  dsimp only
  (repeat' split) <;> simp

@[simp] theorem State.tapWrite_keeps (r : Record) :
    (s.tapWrite r).pending = s.pending ∧ (s.tapWrite r).resetPin = s.resetPin ∧
    (s.tapWrite r).position = s.position ∧ (s.tapWrite r).linkOut = s.linkOut ∧ (s.tapWrite r).link = s.link ∧
    (s.tapWrite r).lines = s.lines ∧ (s.tapWrite r).tap = s.tap ∧ (s.tapWrite r).ramps = s.ramps ∧
    (s.tapWrite r).gens = s.gens ∧ (s.tapWrite r).out = s.out ∧ (s.tapWrite r).mem = s.mem ∧
    (s.tapWrite r).dram = s.dram ∧ (s.tapWrite r).powerCycle = s.powerCycle ∧
    (s.tapWrite r).passSerial = s.passSerial := by
  unfold State.tapWrite State.tableList
  dsimp only
  (repeat' split) <;> simp

@[simp] theorem State.tapClear_keeps (r : Record) :
    (s.tapClear r).pending = s.pending ∧ (s.tapClear r).resetPin = s.resetPin ∧
    (s.tapClear r).position = s.position ∧ (s.tapClear r).linkOut = s.linkOut ∧ (s.tapClear r).link = s.link ∧
    (s.tapClear r).lines = s.lines ∧ (s.tapClear r).tap = s.tap ∧ (s.tapClear r).ramps = s.ramps ∧
    (s.tapClear r).gens = s.gens ∧ (s.tapClear r).out = s.out ∧ (s.tapClear r).mem = s.mem ∧
    (s.tapClear r).dram = s.dram ∧ (s.tapClear r).powerCycle = s.powerCycle ∧
    (s.tapClear r).passSerial = s.passSerial := by
  unfold State.tapClear State.tableList
  dsimp only
  (repeat' split) <;> simp

@[simp] theorem State.copyActive_keeps (r : Record) :
    (s.copyActive r).pending = s.pending ∧ (s.copyActive r).resetPin = s.resetPin ∧
    (s.copyActive r).position = s.position ∧ (s.copyActive r).linkOut = s.linkOut ∧
    (s.copyActive r).link = s.link ∧ (s.copyActive r).lines = s.lines ∧ (s.copyActive r).tap = s.tap ∧
    (s.copyActive r).ramps = s.ramps ∧ (s.copyActive r).gens = s.gens ∧ (s.copyActive r).out = s.out ∧
    (s.copyActive r).mem = s.mem ∧ (s.copyActive r).dram = s.dram ∧ (s.copyActive r).powerCycle = s.powerCycle ∧
    (s.copyActive r).passSerial = s.passSerial := by
  unfold State.copyActive State.tableList
  (repeat' split) <;> simp

@[simp] theorem State.swapRecord_keeps (r : Record) :
    (s.swapRecord r).pending = s.pending ∧ (s.swapRecord r).resetPin = s.resetPin ∧
    (s.swapRecord r).position = s.position ∧ (s.swapRecord r).linkOut = s.linkOut ∧
    (s.swapRecord r).link = s.link ∧ (s.swapRecord r).lines = s.lines ∧ (s.swapRecord r).tap = s.tap ∧
    (s.swapRecord r).ramps = s.ramps ∧ (s.swapRecord r).gens = s.gens ∧ (s.swapRecord r).out = s.out ∧
    (s.swapRecord r).mem = s.mem ∧ (s.swapRecord r).dram = s.dram ∧ (s.swapRecord r).powerCycle = s.powerCycle ∧
    (s.swapRecord r).passSerial = s.passSerial := by
  unfold State.swapRecord State.tableList
  dsimp only
  (repeat' split) <;> simp

@[simp] theorem State.lineMap_keeps (r : Record) :
    (s.lineMap r).pending = s.pending ∧ (s.lineMap r).resetPin = s.resetPin ∧
    (s.lineMap r).position = s.position ∧ (s.lineMap r).linkOut = s.linkOut ∧ (s.lineMap r).link = s.link ∧
    (s.lineMap r).store = s.store ∧ (s.lineMap r).tap = s.tap ∧ (s.lineMap r).ramps = s.ramps ∧
    (s.lineMap r).gens = s.gens ∧ (s.lineMap r).out = s.out ∧ (s.lineMap r).mem = s.mem ∧
    (s.lineMap r).dram = s.dram ∧ (s.lineMap r).powerCycle = s.powerCycle ∧
    (s.lineMap r).passSerial = s.passSerial := by
  unfold State.lineMap State.tableList
  dsimp only
  (repeat' split) <;> simp

@[simp] theorem State.outputMap_keeps (r : Record) :
    (s.outputMap r).pending = s.pending ∧ (s.outputMap r).resetPin = s.resetPin ∧
    (s.outputMap r).position = s.position ∧ (s.outputMap r).linkOut = s.linkOut ∧ (s.outputMap r).link = s.link ∧
    (s.outputMap r).lines = s.lines ∧ (s.outputMap r).tap = s.tap ∧ (s.outputMap r).ramps = s.ramps ∧
    (s.outputMap r).gens = s.gens ∧ (s.outputMap r).out = s.out ∧ (s.outputMap r).mem = s.mem ∧
    (s.outputMap r).dram = s.dram ∧ (s.outputMap r).powerCycle = s.powerCycle ∧
    (s.outputMap r).passSerial = s.passSerial := by
  unfold State.outputMap State.tableList
  dsimp only
  (repeat' split) <;> simp

@[simp] theorem State.applySetup_keeps (r : Record) (n : Nat) (i : Interval) (l : Nat) :
    (s.applySetup r n i l).pending = s.pending ∧ (s.applySetup r n i l).resetPin = s.resetPin ∧
    (s.applySetup r n i l).position = s.position ∧ (s.applySetup r n i l).linkOut = s.linkOut ∧
    (s.applySetup r n i l).link = s.link ∧ (s.applySetup r n i l).store = s.store ∧
    (s.applySetup r n i l).lines = s.lines ∧ (s.applySetup r n i l).tap = s.tap ∧
    (s.applySetup r n i l).ramps = s.ramps ∧ (s.applySetup r n i l).gens = s.gens ∧
    (s.applySetup r n i l).out = s.out ∧ (s.applySetup r n i l).dram = s.dram ∧
    (s.applySetup r n i l).powerCycle = s.powerCycle ∧ (s.applySetup r n i l).passSerial = s.passSerial := by
  unfold State.applySetup 
  dsimp only
  (repeat' split) <;> simp

@[simp] theorem State.memorySetup_keeps (r : Record) :
    (s.memorySetup r).pending = s.pending ∧ (s.memorySetup r).resetPin = s.resetPin ∧
    (s.memorySetup r).position = s.position ∧ (s.memorySetup r).linkOut = s.linkOut ∧
    (s.memorySetup r).link = s.link ∧ (s.memorySetup r).store = s.store ∧ (s.memorySetup r).lines = s.lines ∧
    (s.memorySetup r).tap = s.tap ∧ (s.memorySetup r).ramps = s.ramps ∧ (s.memorySetup r).gens = s.gens ∧
    (s.memorySetup r).out = s.out ∧ (s.memorySetup r).dram = s.dram ∧
    (s.memorySetup r).powerCycle = s.powerCycle ∧ (s.memorySetup r).passSerial = s.passSerial := by
  unfold State.memorySetup State.tableList
  (repeat' split) <;> simp

@[simp] theorem tapGainEntry_keeps (e : List Byte) :
    (tapGainEntry s e).1.pending = s.pending ∧ (tapGainEntry s e).1.resetPin = s.resetPin ∧
    (tapGainEntry s e).1.position = s.position ∧ (tapGainEntry s e).1.linkOut = s.linkOut ∧
    (tapGainEntry s e).1.link = s.link ∧ (tapGainEntry s e).1.records = s.records ∧
    (tapGainEntry s e).1.lines = s.lines ∧ (tapGainEntry s e).1.tap = s.tap ∧
    (tapGainEntry s e).1.gens = s.gens ∧ (tapGainEntry s e).1.out = s.out ∧ (tapGainEntry s e).1.mem = s.mem ∧
    (tapGainEntry s e).1.dram = s.dram ∧ (tapGainEntry s e).1.powerCycle = s.powerCycle ∧
    (tapGainEntry s e).1.passSerial = s.passSerial := by
  unfold tapGainEntry
  dsimp only
  (repeat' split) <;> simp

@[simp] theorem tapGainEntry_all_keeps (es : List (List Byte)) (i : Nat) (t : Tally) :
    (takeEntries (tapGainEntry) es i s t).1.pending = s.pending ∧
    (takeEntries (tapGainEntry) es i s t).1.resetPin = s.resetPin ∧
    (takeEntries (tapGainEntry) es i s t).1.position = s.position ∧
    (takeEntries (tapGainEntry) es i s t).1.linkOut = s.linkOut ∧
    (takeEntries (tapGainEntry) es i s t).1.link = s.link ∧
    (takeEntries (tapGainEntry) es i s t).1.records = s.records ∧
    (takeEntries (tapGainEntry) es i s t).1.lines = s.lines ∧
    (takeEntries (tapGainEntry) es i s t).1.tap = s.tap ∧
    (takeEntries (tapGainEntry) es i s t).1.gens = s.gens ∧
    (takeEntries (tapGainEntry) es i s t).1.out = s.out ∧
    (takeEntries (tapGainEntry) es i s t).1.mem = s.mem ∧
    (takeEntries (tapGainEntry) es i s t).1.dram = s.dram ∧
    (takeEntries (tapGainEntry) es i s t).1.powerCycle = s.powerCycle ∧
    (takeEntries (tapGainEntry) es i s t).1.passSerial = s.passSerial := by
  induction es generalizing i s t with
  | nil => simp [takeEntries]
  | cons e es ih => simp [takeEntries, ih]

@[simp] theorem masterGainEntry_keeps (e : List Byte) :
    (masterGainEntry s e).1.pending = s.pending ∧ (masterGainEntry s e).1.resetPin = s.resetPin ∧
    (masterGainEntry s e).1.position = s.position ∧ (masterGainEntry s e).1.linkOut = s.linkOut ∧
    (masterGainEntry s e).1.link = s.link ∧ (masterGainEntry s e).1.records = s.records ∧
    (masterGainEntry s e).1.lines = s.lines ∧ (masterGainEntry s e).1.tap = s.tap ∧
    (masterGainEntry s e).1.gens = s.gens ∧ (masterGainEntry s e).1.out = s.out ∧
    (masterGainEntry s e).1.mem = s.mem ∧ (masterGainEntry s e).1.dram = s.dram ∧
    (masterGainEntry s e).1.powerCycle = s.powerCycle ∧ (masterGainEntry s e).1.passSerial = s.passSerial := by
  unfold masterGainEntry
  dsimp only
  (repeat' split) <;> simp

@[simp] theorem masterGainEntry_all_keeps (es : List (List Byte)) (i : Nat) (t : Tally) :
    (takeEntries (masterGainEntry) es i s t).1.pending = s.pending ∧
    (takeEntries (masterGainEntry) es i s t).1.resetPin = s.resetPin ∧
    (takeEntries (masterGainEntry) es i s t).1.position = s.position ∧
    (takeEntries (masterGainEntry) es i s t).1.linkOut = s.linkOut ∧
    (takeEntries (masterGainEntry) es i s t).1.link = s.link ∧
    (takeEntries (masterGainEntry) es i s t).1.records = s.records ∧
    (takeEntries (masterGainEntry) es i s t).1.lines = s.lines ∧
    (takeEntries (masterGainEntry) es i s t).1.tap = s.tap ∧
    (takeEntries (masterGainEntry) es i s t).1.gens = s.gens ∧
    (takeEntries (masterGainEntry) es i s t).1.out = s.out ∧
    (takeEntries (masterGainEntry) es i s t).1.mem = s.mem ∧
    (takeEntries (masterGainEntry) es i s t).1.dram = s.dram ∧
    (takeEntries (masterGainEntry) es i s t).1.powerCycle = s.powerCycle ∧
    (takeEntries (masterGainEntry) es i s t).1.passSerial = s.passSerial := by
  induction es generalizing i s t with
  | nil => simp [takeEntries]
  | cons e es ih => simp [takeEntries, ih]

@[simp] theorem overrideEntry_keeps (m : OverrideMode) (l : Fin 64) (b : Bool) (e : List Byte) :
    (overrideEntry m l b s e).1.pending = s.pending ∧ (overrideEntry m l b s e).1.resetPin = s.resetPin ∧
    (overrideEntry m l b s e).1.position = s.position ∧ (overrideEntry m l b s e).1.linkOut = s.linkOut ∧
    (overrideEntry m l b s e).1.link = s.link ∧ (overrideEntry m l b s e).1.records = s.records ∧
    (overrideEntry m l b s e).1.lines = s.lines ∧ (overrideEntry m l b s e).1.tap = s.tap ∧
    (overrideEntry m l b s e).1.ramps = s.ramps ∧ (overrideEntry m l b s e).1.gens = s.gens ∧
    (overrideEntry m l b s e).1.mem = s.mem ∧ (overrideEntry m l b s e).1.dram = s.dram ∧
    (overrideEntry m l b s e).1.powerCycle = s.powerCycle ∧
    (overrideEntry m l b s e).1.passSerial = s.passSerial := by
  unfold overrideEntry
  (repeat' split) <;> simp

@[simp] theorem overrideEntry_all_keeps (m : OverrideMode) (l : Fin 64) (b : Bool) (es : List (List Byte)) (i : Nat) (t : Tally) :
    (takeEntries (overrideEntry m l b) es i s t).1.pending = s.pending ∧
    (takeEntries (overrideEntry m l b) es i s t).1.resetPin = s.resetPin ∧
    (takeEntries (overrideEntry m l b) es i s t).1.position = s.position ∧
    (takeEntries (overrideEntry m l b) es i s t).1.linkOut = s.linkOut ∧
    (takeEntries (overrideEntry m l b) es i s t).1.link = s.link ∧
    (takeEntries (overrideEntry m l b) es i s t).1.records = s.records ∧
    (takeEntries (overrideEntry m l b) es i s t).1.lines = s.lines ∧
    (takeEntries (overrideEntry m l b) es i s t).1.tap = s.tap ∧
    (takeEntries (overrideEntry m l b) es i s t).1.ramps = s.ramps ∧
    (takeEntries (overrideEntry m l b) es i s t).1.gens = s.gens ∧
    (takeEntries (overrideEntry m l b) es i s t).1.mem = s.mem ∧
    (takeEntries (overrideEntry m l b) es i s t).1.dram = s.dram ∧
    (takeEntries (overrideEntry m l b) es i s t).1.powerCycle = s.powerCycle ∧
    (takeEntries (overrideEntry m l b) es i s t).1.passSerial = s.passSerial := by
  induction es generalizing i s t with
  | nil => simp [takeEntries]
  | cons e es ih => simp [takeEntries, ih]

@[simp] theorem guardSetEntry_keeps (tag : Half) (e : List Byte) :
    (guardSetEntry tag s e).1.pending = s.pending ∧ (guardSetEntry tag s e).1.resetPin = s.resetPin ∧
    (guardSetEntry tag s e).1.position = s.position ∧ (guardSetEntry tag s e).1.linkOut = s.linkOut ∧
    (guardSetEntry tag s e).1.link = s.link ∧ (guardSetEntry tag s e).1.store = s.store ∧
    (guardSetEntry tag s e).1.lines = s.lines ∧ (guardSetEntry tag s e).1.tap = s.tap ∧
    (guardSetEntry tag s e).1.ramps = s.ramps ∧ (guardSetEntry tag s e).1.gens = s.gens ∧
    (guardSetEntry tag s e).1.mem = s.mem ∧ (guardSetEntry tag s e).1.dram = s.dram ∧
    (guardSetEntry tag s e).1.powerCycle = s.powerCycle ∧
    (guardSetEntry tag s e).1.passSerial = s.passSerial := by
  unfold guardSetEntry State.setA State.setB
  dsimp only
  (repeat' split) <;> simp

@[simp] theorem guardSetEntry_all_keeps (tag : Half) (es : List (List Byte)) (i : Nat) (t : Tally) :
    (takeEntries (guardSetEntry tag) es i s t).1.pending = s.pending ∧
    (takeEntries (guardSetEntry tag) es i s t).1.resetPin = s.resetPin ∧
    (takeEntries (guardSetEntry tag) es i s t).1.position = s.position ∧
    (takeEntries (guardSetEntry tag) es i s t).1.linkOut = s.linkOut ∧
    (takeEntries (guardSetEntry tag) es i s t).1.link = s.link ∧
    (takeEntries (guardSetEntry tag) es i s t).1.store = s.store ∧
    (takeEntries (guardSetEntry tag) es i s t).1.lines = s.lines ∧
    (takeEntries (guardSetEntry tag) es i s t).1.tap = s.tap ∧
    (takeEntries (guardSetEntry tag) es i s t).1.ramps = s.ramps ∧
    (takeEntries (guardSetEntry tag) es i s t).1.gens = s.gens ∧
    (takeEntries (guardSetEntry tag) es i s t).1.mem = s.mem ∧
    (takeEntries (guardSetEntry tag) es i s t).1.dram = s.dram ∧
    (takeEntries (guardSetEntry tag) es i s t).1.powerCycle = s.powerCycle ∧
    (takeEntries (guardSetEntry tag) es i s t).1.passSerial = s.passSerial := by
  induction es generalizing i s t with
  | nil => simp [takeEntries]
  | cons e es ih => simp [takeEntries, ih]

@[simp] theorem guardReleaseEntry_keeps (tag : Half) (e : List Byte) :
    (guardReleaseEntry tag s e).1.pending = s.pending ∧ (guardReleaseEntry tag s e).1.resetPin = s.resetPin ∧
    (guardReleaseEntry tag s e).1.position = s.position ∧ (guardReleaseEntry tag s e).1.linkOut = s.linkOut ∧
    (guardReleaseEntry tag s e).1.link = s.link ∧ (guardReleaseEntry tag s e).1.store = s.store ∧
    (guardReleaseEntry tag s e).1.lines = s.lines ∧ (guardReleaseEntry tag s e).1.tap = s.tap ∧
    (guardReleaseEntry tag s e).1.ramps = s.ramps ∧ (guardReleaseEntry tag s e).1.gens = s.gens ∧
    (guardReleaseEntry tag s e).1.mem = s.mem ∧ (guardReleaseEntry tag s e).1.dram = s.dram ∧
    (guardReleaseEntry tag s e).1.powerCycle = s.powerCycle ∧
    (guardReleaseEntry tag s e).1.passSerial = s.passSerial := by
  unfold guardReleaseEntry
  dsimp only
  (repeat' split) <;> simp

@[simp] theorem guardReleaseEntry_all_keeps (tag : Half) (es : List (List Byte)) (i : Nat) (t : Tally) :
    (takeEntries (guardReleaseEntry tag) es i s t).1.pending = s.pending ∧
    (takeEntries (guardReleaseEntry tag) es i s t).1.resetPin = s.resetPin ∧
    (takeEntries (guardReleaseEntry tag) es i s t).1.position = s.position ∧
    (takeEntries (guardReleaseEntry tag) es i s t).1.linkOut = s.linkOut ∧
    (takeEntries (guardReleaseEntry tag) es i s t).1.link = s.link ∧
    (takeEntries (guardReleaseEntry tag) es i s t).1.store = s.store ∧
    (takeEntries (guardReleaseEntry tag) es i s t).1.lines = s.lines ∧
    (takeEntries (guardReleaseEntry tag) es i s t).1.tap = s.tap ∧
    (takeEntries (guardReleaseEntry tag) es i s t).1.ramps = s.ramps ∧
    (takeEntries (guardReleaseEntry tag) es i s t).1.gens = s.gens ∧
    (takeEntries (guardReleaseEntry tag) es i s t).1.mem = s.mem ∧
    (takeEntries (guardReleaseEntry tag) es i s t).1.dram = s.dram ∧
    (takeEntries (guardReleaseEntry tag) es i s t).1.powerCycle = s.powerCycle ∧
    (takeEntries (guardReleaseEntry tag) es i s t).1.passSerial = s.passSerial := by
  induction es generalizing i s t with
  | nil => simp [takeEntries]
  | cons e es ih => simp [takeEntries, ih]

@[simp] theorem State.tapGain_keeps (r : Record) :
    (s.tapGain r).pending = s.pending ∧ (s.tapGain r).resetPin = s.resetPin ∧
    (s.tapGain r).position = s.position ∧ (s.tapGain r).linkOut = s.linkOut ∧ (s.tapGain r).link = s.link ∧
    (s.tapGain r).lines = s.lines ∧ (s.tapGain r).tap = s.tap ∧ (s.tapGain r).gens = s.gens ∧
    (s.tapGain r).out = s.out ∧ (s.tapGain r).mem = s.mem ∧ (s.tapGain r).dram = s.dram ∧
    (s.tapGain r).powerCycle = s.powerCycle ∧ (s.tapGain r).passSerial = s.passSerial := by
  unfold State.tapGain State.liveList
  dsimp only
  (repeat' split) <;> simp

@[simp] theorem State.masterGain_keeps (r : Record) :
    (s.masterGain r).pending = s.pending ∧ (s.masterGain r).resetPin = s.resetPin ∧
    (s.masterGain r).position = s.position ∧ (s.masterGain r).linkOut = s.linkOut ∧
    (s.masterGain r).link = s.link ∧ (s.masterGain r).lines = s.lines ∧ (s.masterGain r).tap = s.tap ∧
    (s.masterGain r).gens = s.gens ∧ (s.masterGain r).out = s.out ∧ (s.masterGain r).mem = s.mem ∧
    (s.masterGain r).dram = s.dram ∧ (s.masterGain r).powerCycle = s.powerCycle ∧
    (s.masterGain r).passSerial = s.passSerial := by
  unfold State.masterGain State.liveList
  dsimp only
  (repeat' split) <;> simp

@[simp] theorem State.override_keeps (r : Record) :
    (s.override r).pending = s.pending ∧ (s.override r).resetPin = s.resetPin ∧
    (s.override r).position = s.position ∧ (s.override r).linkOut = s.linkOut ∧ (s.override r).link = s.link ∧
    (s.override r).lines = s.lines ∧ (s.override r).tap = s.tap ∧ (s.override r).ramps = s.ramps ∧
    (s.override r).gens = s.gens ∧ (s.override r).mem = s.mem ∧ (s.override r).dram = s.dram ∧
    (s.override r).powerCycle = s.powerCycle ∧ (s.override r).passSerial = s.passSerial := by
  unfold State.override State.liveList
  dsimp only
  (repeat' split) <;> simp

@[simp] theorem State.guardSet_keeps (r : Record) :
    (s.guardSet r).pending = s.pending ∧ (s.guardSet r).resetPin = s.resetPin ∧
    (s.guardSet r).position = s.position ∧ (s.guardSet r).linkOut = s.linkOut ∧ (s.guardSet r).link = s.link ∧
    (s.guardSet r).store = s.store ∧ (s.guardSet r).lines = s.lines ∧ (s.guardSet r).tap = s.tap ∧
    (s.guardSet r).ramps = s.ramps ∧ (s.guardSet r).gens = s.gens ∧ (s.guardSet r).mem = s.mem ∧
    (s.guardSet r).dram = s.dram ∧ (s.guardSet r).powerCycle = s.powerCycle ∧
    (s.guardSet r).passSerial = s.passSerial := by
  unfold State.guardSet State.liveList
  dsimp only
  (repeat' split) <;> simp

@[simp] theorem State.guardRelease_keeps (r : Record) :
    (s.guardRelease r).pending = s.pending ∧ (s.guardRelease r).resetPin = s.resetPin ∧
    (s.guardRelease r).position = s.position ∧ (s.guardRelease r).linkOut = s.linkOut ∧
    (s.guardRelease r).link = s.link ∧ (s.guardRelease r).store = s.store ∧ (s.guardRelease r).lines = s.lines ∧
    (s.guardRelease r).tap = s.tap ∧ (s.guardRelease r).ramps = s.ramps ∧ (s.guardRelease r).gens = s.gens ∧
    (s.guardRelease r).mem = s.mem ∧ (s.guardRelease r).dram = s.dram ∧
    (s.guardRelease r).powerCycle = s.powerCycle ∧ (s.guardRelease r).passSerial = s.passSerial := by
  unfold State.guardRelease State.liveList
  dsimp only
  (repeat' split) <;> simp

@[simp] theorem State.generatorSet_keeps (r : Record) :
    (s.generatorSet r).pending = s.pending ∧ (s.generatorSet r).resetPin = s.resetPin ∧
    (s.generatorSet r).position = s.position ∧ (s.generatorSet r).linkOut = s.linkOut ∧
    (s.generatorSet r).link = s.link ∧ (s.generatorSet r).store = s.store ∧ (s.generatorSet r).lines = s.lines ∧
    (s.generatorSet r).tap = s.tap ∧ (s.generatorSet r).ramps = s.ramps ∧ (s.generatorSet r).out = s.out ∧
    (s.generatorSet r).mem = s.mem ∧ (s.generatorSet r).dram = s.dram ∧
    (s.generatorSet r).powerCycle = s.powerCycle ∧ (s.generatorSet r).passSerial = s.passSerial := by
  unfold State.generatorSet State.liveList
  dsimp only
  (repeat' split) <;> simp

@[simp] theorem State.generatorLoad_keeps (r : Record) :
    (s.generatorLoad r).pending = s.pending ∧ (s.generatorLoad r).resetPin = s.resetPin ∧
    (s.generatorLoad r).position = s.position ∧ (s.generatorLoad r).linkOut = s.linkOut ∧
    (s.generatorLoad r).link = s.link ∧ (s.generatorLoad r).store = s.store ∧
    (s.generatorLoad r).lines = s.lines ∧ (s.generatorLoad r).tap = s.tap ∧ (s.generatorLoad r).ramps = s.ramps ∧
    (s.generatorLoad r).out = s.out ∧ (s.generatorLoad r).mem = s.mem ∧ (s.generatorLoad r).dram = s.dram ∧
    (s.generatorLoad r).powerCycle = s.powerCycle ∧ (s.generatorLoad r).passSerial = s.passSerial := by
  unfold State.generatorLoad State.liveList
  dsimp only
  (repeat' split) <;> simp

@[simp] theorem State.rampSet_keeps (r : Record) :
    (s.rampSet r).pending = s.pending ∧ (s.rampSet r).resetPin = s.resetPin ∧
    (s.rampSet r).position = s.position ∧ (s.rampSet r).linkOut = s.linkOut ∧ (s.rampSet r).link = s.link ∧
    (s.rampSet r).store = s.store ∧ (s.rampSet r).lines = s.lines ∧ (s.rampSet r).tap = s.tap ∧
    (s.rampSet r).gens = s.gens ∧ (s.rampSet r).out = s.out ∧ (s.rampSet r).mem = s.mem ∧
    (s.rampSet r).dram = s.dram ∧ (s.rampSet r).powerCycle = s.powerCycle ∧
    (s.rampSet r).passSerial = s.passSerial := by
  unfold State.rampSet State.liveList
  dsimp only
  (repeat' split) <;> simp

@[simp] theorem State.cancelSwap_keeps (r : Record) :
    (s.cancelSwap r).pending = s.pending ∧ (s.cancelSwap r).resetPin = s.resetPin ∧
    (s.cancelSwap r).position = s.position ∧ (s.cancelSwap r).linkOut = s.linkOut ∧
    (s.cancelSwap r).link = s.link ∧ (s.cancelSwap r).lines = s.lines ∧ (s.cancelSwap r).tap = s.tap ∧
    (s.cancelSwap r).ramps = s.ramps ∧ (s.cancelSwap r).gens = s.gens ∧ (s.cancelSwap r).out = s.out ∧
    (s.cancelSwap r).mem = s.mem ∧ (s.cancelSwap r).dram = s.dram ∧ (s.cancelSwap r).powerCycle = s.powerCycle ∧
    (s.cancelSwap r).passSerial = s.passSerial := by
  unfold State.cancelSwap State.liveList
  dsimp only
  (repeat' split) <;> simp

@[simp] theorem State.withNode_keeps (n : NodeState) :
    (s.withNode n).pending = s.pending ∧ (s.withNode n).resetPin = s.resetPin ∧
    (s.withNode n).position = s.position ∧ (s.withNode n).linkOut = s.linkOut ∧ (s.withNode n).link = s.link ∧
    (s.withNode n).store = s.store ∧ (s.withNode n).lines = s.lines ∧ (s.withNode n).tap = s.tap ∧
    (s.withNode n).ramps = s.ramps ∧ (s.withNode n).gens = s.gens ∧ (s.withNode n).out = s.out ∧
    (s.withNode n).mem = s.mem ∧ (s.withNode n).dram = s.dram ∧ (s.withNode n).powerCycle = s.powerCycle ∧
    (s.withNode n).passSerial = s.passSerial := by
  refine ⟨?_, ?_, ?_, ?_, ?_, ?_, ?_, ?_, ?_, ?_, ?_, ?_, ?_, ?_, ?_⟩ <;> rfl

@[simp] theorem State.awaitMute_keeps (r : Record) :
    (s.awaitMute r).pending = s.pending ∧ (s.awaitMute r).resetPin = s.resetPin ∧
    (s.awaitMute r).position = s.position ∧ (s.awaitMute r).linkOut = s.linkOut ∧ (s.awaitMute r).link = s.link ∧
    (s.awaitMute r).store = s.store ∧ (s.awaitMute r).lines = s.lines ∧ (s.awaitMute r).tap = s.tap ∧
    (s.awaitMute r).ramps = s.ramps ∧ (s.awaitMute r).gens = s.gens ∧ (s.awaitMute r).out = s.out ∧
    (s.awaitMute r).mem = s.mem ∧ (s.awaitMute r).dram = s.dram ∧ (s.awaitMute r).powerCycle = s.powerCycle ∧
    (s.awaitMute r).passSerial = s.passSerial := by
  refine ⟨?_, ?_, ?_, ?_, ?_, ?_, ?_, ?_, ?_, ?_, ?_, ?_, ?_, ?_, ?_⟩ <;> rfl

@[simp] theorem State.mute_keeps (r : Record) :
    (s.mute r).pending = s.pending ∧ (s.mute r).resetPin = s.resetPin ∧ (s.mute r).position = s.position ∧
    (s.mute r).linkOut = s.linkOut ∧ (s.mute r).link = s.link ∧ (s.mute r).store = s.store ∧
    (s.mute r).lines = s.lines ∧ (s.mute r).tap = s.tap ∧ (s.mute r).gens = s.gens ∧ (s.mute r).out = s.out ∧
    (s.mute r).mem = s.mem ∧ (s.mute r).dram = s.dram ∧ (s.mute r).powerCycle = s.powerCycle ∧
    (s.mute r).passSerial = s.passSerial := by
  unfold State.mute 
  dsimp only
  (repeat' split) <;> simp

@[simp] theorem State.play_keeps :
    (s.play).pending = s.pending ∧ (s.play).resetPin = s.resetPin ∧ (s.play).position = s.position ∧
    (s.play).linkOut = s.linkOut ∧ (s.play).link = s.link ∧ (s.play).store = s.store ∧ (s.play).lines = s.lines ∧
    (s.play).tap = s.tap ∧ (s.play).gens = s.gens ∧ (s.play).out = s.out ∧ (s.play).mem = s.mem ∧
    (s.play).dram = s.dram ∧ (s.play).powerCycle = s.powerCycle ∧ (s.play).passSerial = s.passSerial := by
  refine ⟨?_, ?_, ?_, ?_, ?_, ?_, ?_, ?_, ?_, ?_, ?_, ?_, ?_, ?_⟩ <;> rfl

@[simp] theorem State.runNode_keeps (r : Record) :
    (s.runNode r).pending = s.pending ∧ (s.runNode r).resetPin = s.resetPin ∧
    (s.runNode r).position = s.position ∧ (s.runNode r).linkOut = s.linkOut ∧ (s.runNode r).link = s.link ∧
    (s.runNode r).store = s.store ∧ (s.runNode r).lines = s.lines ∧ (s.runNode r).tap = s.tap ∧
    (s.runNode r).gens = s.gens ∧ (s.runNode r).out = s.out ∧ (s.runNode r).mem = s.mem ∧
    (s.runNode r).dram = s.dram ∧ (s.runNode r).powerCycle = s.powerCycle ∧
    (s.runNode r).passSerial = s.passSerial := by
  unfold State.runNode 
  (repeat' split) <;> simp

@[simp] theorem State.quiesce_keeps (r : Record) :
    (s.quiesce r).pending = s.pending ∧ (s.quiesce r).resetPin = s.resetPin ∧
    (s.quiesce r).position = s.position ∧ (s.quiesce r).linkOut = s.linkOut ∧ (s.quiesce r).link = s.link ∧
    (s.quiesce r).store = s.store ∧ (s.quiesce r).lines = s.lines ∧ (s.quiesce r).tap = s.tap ∧
    (s.quiesce r).ramps = s.ramps ∧ (s.quiesce r).gens = s.gens ∧ (s.quiesce r).out = s.out ∧
    (s.quiesce r).dram = s.dram ∧ (s.quiesce r).powerCycle = s.powerCycle ∧
    (s.quiesce r).passSerial = s.passSerial := by
  unfold State.quiesce 
  (repeat' split) <;> simp

@[simp] theorem State.wake_keeps (r : Record) :
    (s.wake r).pending = s.pending ∧ (s.wake r).resetPin = s.resetPin ∧ (s.wake r).position = s.position ∧
    (s.wake r).linkOut = s.linkOut ∧ (s.wake r).link = s.link ∧ (s.wake r).store = s.store ∧
    (s.wake r).tap = s.tap ∧ (s.wake r).ramps = s.ramps ∧ (s.wake r).gens = s.gens ∧ (s.wake r).out = s.out ∧
    (s.wake r).dram = s.dram ∧ (s.wake r).powerCycle = s.powerCycle ∧ (s.wake r).passSerial = s.passSerial := by
  unfold State.wake 
  (repeat' split) <;> simp

@[simp] theorem State.clearCounters_keeps :
    (s.clearCounters).pending = s.pending ∧ (s.clearCounters).resetPin = s.resetPin ∧
    (s.clearCounters).position = s.position ∧ (s.clearCounters).linkOut = s.linkOut ∧
    (s.clearCounters).records = s.records ∧ (s.clearCounters).store = s.store ∧
    (s.clearCounters).lines = s.lines ∧ (s.clearCounters).ramps = s.ramps ∧ (s.clearCounters).gens = s.gens ∧
    (s.clearCounters).mem = s.mem ∧ (s.clearCounters).dram = s.dram ∧
    (s.clearCounters).powerCycle = s.powerCycle ∧ (s.clearCounters).passSerial = s.passSerial := by
  refine ⟨?_, ?_, ?_, ?_, ?_, ?_, ?_, ?_, ?_, ?_, ?_, ?_, ?_⟩ <;> rfl

@[simp] theorem State.statusRead_keeps (r : Record) :
    (s.statusRead r).pending = s.pending ∧ (s.statusRead r).resetPin = s.resetPin ∧
    (s.statusRead r).position = s.position ∧ (s.statusRead r).linkOut = s.linkOut ∧
    (s.statusRead r).store = s.store ∧ (s.statusRead r).lines = s.lines ∧ (s.statusRead r).ramps = s.ramps ∧
    (s.statusRead r).gens = s.gens ∧ (s.statusRead r).mem = s.mem ∧ (s.statusRead r).dram = s.dram ∧
    (s.statusRead r).powerCycle = s.powerCycle ∧ (s.statusRead r).passSerial = s.passSerial := by
  unfold State.statusRead State.liveList
  dsimp only
  (repeat' split) <;> simp

@[simp] theorem State.restartBlocks_keeps :
    (s.restartBlocks).pending = s.pending ∧ (s.restartBlocks).resetPin = s.resetPin ∧
    (s.restartBlocks).position = s.position ∧ (s.restartBlocks).linkOut = s.linkOut ∧
    (s.restartBlocks).dram = s.dram ∧ (s.restartBlocks).powerCycle = s.powerCycle ∧
    (s.restartBlocks).passSerial = s.passSerial := by
  unfold State.restartBlocks
  dsimp only
  simp

@[simp] theorem State.restart_keeps :
    (s.restart).pending = s.pending ∧ (s.restart).resetPin = s.resetPin ∧ (s.restart).position = s.position ∧
    (s.restart).linkOut = s.linkOut ∧ (s.restart).dram = s.dram ∧ (s.restart).powerCycle = s.powerCycle ∧
    (s.restart).passSerial = s.passSerial := by
  unfold State.restart
  dsimp only
  (repeat' split) <;> simp

end Sys2Proof.Machine
end

