-- ==== Sys2Proof/Laws/Boundary.lean ====
section
/-! SUPPORT. What a block boundary can do, phase by phase and block by block: the lemmas that a claim about a boundary cites. -/

namespace Sys2Proof.Machine

/-- A fixed number of like things, read at a place. -/
theorem getD_tab {α : Type} (n : Nat) (f : Nat → α) (d : α) (c : Nat) (h : c < n) : (tab n f).getD c d = f c := by
  simp [tab, List.getD_eq_getElem?_getD, h]

/-! ### Queueing a notice leaves the rest of the record engine -/

@[simp] theorem Records.queueNotice_keeps (r : Records) (m : Notice) :
    (r.queueNotice m).assembly = r.assembly ∧ (r.queueNotice m).live = r.live ∧ (r.queueNotice m).table = r.table ∧
    (r.queueNotice m).restarts = r.restarts ∧ (r.queueNotice m).awaitingMute = r.awaitingMute ∧
    (r.queueNotice m).node = r.node ∧ (r.queueNotice m).drain = r.drain ∧ (r.queueNotice m).setup = r.setup := by
  unfold Records.queueNotice; split <;> simp

@[simp] theorem Records.queueNotices_keeps (ms : List Notice) (r : Records) :
    (ms.foldl Records.queueNotice r).assembly = r.assembly ∧ (ms.foldl Records.queueNotice r).live = r.live ∧
    (ms.foldl Records.queueNotice r).table = r.table ∧ (ms.foldl Records.queueNotice r).restarts = r.restarts ∧
    (ms.foldl Records.queueNotice r).awaitingMute = r.awaitingMute ∧ (ms.foldl Records.queueNotice r).node = r.node ∧
    (ms.foldl Records.queueNotice r).drain = r.drain ∧ (ms.foldl Records.queueNotice r).setup = r.setup := by
  induction ms generalizing r with
  | nil => simp
  | cons m ms ih => simp [ih]

@[simp] theorem Records.complete_keeps (r : Records) (b : Block) (tag : Half) (op : Op) (notify : Bool)
    (o : RecordOutcome) (c : Counts) :
    (r.complete b tag op notify o c).assembly = r.assembly ∧ (r.complete b tag op notify o c).live = r.live ∧
    (r.complete b tag op notify o c).table = r.table ∧ (r.complete b tag op notify o c).restarts = r.restarts ∧
    (r.complete b tag op notify o c).awaitingMute = r.awaitingMute ∧ (r.complete b tag op notify o c).node = r.node ∧
    (r.complete b tag op notify o c).drain = r.drain ∧ (r.complete b tag op notify o c).setup = r.setup := by
  unfold Records.complete; split <;> simp

/-- The record engine but for its notices: what every notice leaves alone. -/
structure SameButNotices (r q : Records) : Prop where
  assembly : q.assembly = r.assembly
  live : q.live = r.live
  table : q.table = r.table
  restarts : q.restarts = r.restarts
  awaitingMute : q.awaitingMute = r.awaitingMute
  node : q.node = r.node
  drain : q.drain = r.drain
  setup : q.setup = r.setup

theorem SameButNotices.refl (r : Records) : SameButNotices r r := ⟨rfl, rfl, rfl, rfl, rfl, rfl, rfl, rfl⟩

theorem SameButNotices.trans {a b c : Records} (h : SameButNotices a b) (k : SameButNotices b c) : SameButNotices a c :=
  ⟨k.1.trans h.1, k.2.trans h.2, k.3.trans h.3, k.4.trans h.4, k.5.trans h.5, k.6.trans h.6, k.7.trans h.7, k.8.trans h.8⟩

theorem sameButNotices_queueNotice (r : Records) (m : Notice) : SameButNotices r (r.queueNotice m) := by
  constructor <;> simp

theorem sameButNotices_queueNotices (r : Records) (ms : List Notice) :
    SameButNotices r (ms.foldl Records.queueNotice r) := by constructor <;> simp

theorem sameButNotices_complete (r : Records) (b : Block) (tag : Half) (op : Op) (notify : Bool) (o : RecordOutcome)
    (c : Counts) : SameButNotices r (r.complete b tag op notify o c) := by constructor <;> simp

variable (s : State) (b n : Block) (x : Bool) (g : Bool) (p : Pass)

theorem State.atArrival_records : SameButNotices s.records (s.atArrival g).records :=
  sameButNotices_queueNotices _ _

theorem State.atArrival_out : (s.atArrival g).out.recording = s.out.recording ∧ (s.atArrival g).out.recorded = s.out.recorded ∧
    (s.atArrival g).out.filling = s.out.filling ∧ (s.atArrival g).out.insert = s.out.insert ∧
    (s.atArrival g).out.copy = s.out.copy ∧ (s.atArrival g).out.saturation = s.out.saturation := by
  refine ⟨rfl, rfl, rfl, rfl, rfl, rfl⟩

/-! ### What FINISHING and the close of a pass do -/

theorem State.finishPass_tap (w : Option WriteStage) : (s.finishPass p w x).tap = { s.tap with
    state := .idle, pass := none, acc := clearedAccumulators, ending := s.tap.ending ++ [⟨p.number, p.serial, w⟩] } := by
  simp [State.finishPass]

theorem State.finishPass_out (w : Option WriteStage) : (s.finishPass p w x).out = (s.formOutput p).out := by
  simp [State.finishPass]

theorem State.finishPass_records (w : Option WriteStage) : SameButNotices s.records (s.finishPass p w x).records := by
  have h : (s.finishPass p w x).records = (s.formOutput p).records := by simp [State.finishPass]
  rw [h]
  exact sameButNotices_queueNotices _ _

theorem State.reportFade_store : (s.reportFade p x).store = { s.store with endReady := (s.reportFade p x).store.endReady } ∧
    (x = true → (s.reportFade p x).store = s.store) := by
  unfold State.reportFade
  split <;> simp_all

theorem State.finishPass_store (w : Option WriteStage) :
    (s.finishPass p w x).store = { s.store with endReady := (s.finishPass p w x).store.endReady } ∧
    (x = true → (s.finishPass p w x).store = s.store) := by
  have h := (s.formOutput p).reportFade_store x p
  simpa [State.finishPass] using h

/-- What the close of the current pass leaves of the other blocks. -/
theorem State.closePass_rest : SameButNotices s.records (s.closePass x).records ∧
    (s.closePass x).store = { s.store with endReady := (s.closePass x).store.endReady } ∧
    (x = true → (s.closePass x).store = s.store) ∧ (s.closePass x).out.recorded = s.out.recorded ∧
    (s.closePass x).out.recording = s.out.recording ∧ (s.closePass x).out.copy = s.out.copy ∧
    (s.closePass x).out.insert = s.out.insert ∧ (s.closePass x).out.silence = s.out.silence := by
  have fo : ∀ (u : State) (p : Pass), (u.formOutput p).out.recorded = u.out.recorded ∧
      (u.formOutput p).out.recording = u.out.recording ∧ (u.formOutput p).out.copy = u.out.copy ∧
      (u.formOutput p).out.insert = u.out.insert ∧ (u.formOutput p).out.silence = u.out.silence := by
    intro u p; simp [State.formOutput]
  have cr : ∀ (u : State) (p : Pass), SameButNotices u.records (u.countCut p).records := by
    intro u p; unfold State.countCut; dsimp only; split
    · exact sameButNotices_queueNotice _ _
    · exact .refl _
  have key : ∀ (u : State) (p : Pass) (w : Option WriteStage), SameButNotices u.records (u.finishPass p w x).records ∧
      (u.finishPass p w x).store = { u.store with endReady := (u.finishPass p w x).store.endReady } ∧
      (x = true → (u.finishPass p w x).store = u.store) ∧ (u.finishPass p w x).out.recorded = u.out.recorded ∧
      (u.finishPass p w x).out.recording = u.out.recording ∧ (u.finishPass p w x).out.copy = u.out.copy ∧
      (u.finishPass p w x).out.insert = u.out.insert ∧ (u.finishPass p w x).out.silence = u.out.silence := by
    intro u p w
    refine ⟨u.finishPass_records x p w, (u.finishPass_store x p w).1, (u.finishPass_store x p w).2, ?_, ?_, ?_, ?_, ?_⟩ <;>
      rw [u.finishPass_out x p w] <;> simp [fo]
  unfold State.closePass State.finishUncut
  split
  · exact ⟨.refl _, rfl, fun _ => rfl, rfl, rfl, rfl, rfl, rfl⟩
  · rename_i p _
    split
    · simpa using key s p none
    · have k := key ((s.countCut p).withTap { (s.countCut p).tap with acc := clearedAccumulators }) p (some p.write)
      simp only [State.withTap_records, State.withTap_store, State.withTap_out, State.countCut_keeps] at k
      exact ⟨(cr s p).trans k.1, k.2⟩
    · have k := key (s.countCut p) p none
      simp only [State.countCut_keeps] at k
      exact ⟨(cr s p).trans k.1, k.2⟩
    · exact ⟨.refl _, rfl, fun _ => rfl, rfl, rfl, rfl, rfl, rfl⟩

/-- The close of a pass that is there ends it. -/
theorem State.closePass_tap (h : s.tap.pass = none ↔ s.tap.state = .idle) :
    (s.closePass x).tap.pass = none ∧ (s.closePass x).tap.state = .idle := by
  unfold State.closePass State.finishUncut
  split
  · rename_i e; exact ⟨e, h.1 e⟩
  · split
    · simp [State.finishPass_tap]
    · simp [State.finishPass_tap]
    · simp [State.finishPass_tap]
    · rename_i e; exact ⟨h.2 e, e⟩

/-! ### The abandonment of a pass -/

theorem State.abandonPass_out : (s.abandonPass).out.filling = OutBuffer.zeros ∧ (s.abandonPass).out.insert = OutBuffer.zeros ∧
    (s.abandonPass).out.recorded = s.out.recorded ∧ (s.abandonPass).out.recording = s.out.recording ∧
    (s.abandonPass).out.copy = s.out.copy ∧ (s.abandonPass).out.groups = s.out.groups ∧
    (s.abandonPass).out.guardB = s.out.guardB ∧ (s.abandonPass).out.silence = s.out.silence := by
  unfold State.abandonPass State.partialSaturation
  dsimp only
  split <;> simp

theorem State.abandonPass_tap : (s.abandonPass).tap.pass = none ∧ (s.abandonPass).tap.cutCount = s.tap.cutCount ∧
    (∀ e ∈ (s.abandonPass).tap.ending, e.write = none) ∧
    ((s.tap.pass = none ↔ s.tap.state = .idle) → (s.abandonPass).tap.state = .idle) := by
  unfold State.abandonPass
  simp only [State.reapEnding, State.withTap_tap, State.withOut_tap, State.partialSaturation_keeps]
  cases hp : s.tap.pass with
  | none =>
    refine ⟨?_, rfl, ?_, fun h => h.1 rfl⟩
    · simp
    intro e he
    simp only [List.mem_filter, List.mem_map] at he
    obtain ⟨⟨y, _, rfl⟩, _⟩ := he
    rfl
  | some p =>
    refine ⟨rfl, rfl, ?_, fun _ => rfl⟩
    intro e he
    simp only [List.mem_filter, List.mem_append, List.mem_map, List.mem_singleton] at he
    rcases he with ⟨⟨y, _, rfl⟩ | rfl, _⟩ <;> rfl

/-! ### A boundary in its phases -/

/-- After the input blocks have turned, and at a renumber the pass is abandoned. -/
def State.boundaryTurned : State := if x then (s.turnBlock n).renumber b n else s.turnBlock n

/-- After the generators stepped and the pending swap was judged, with whether it took effect. -/
def State.boundarySwapped : State × Bool :=
  ((s.boundaryTurned b n x).stepGenerators n).swapAtBoundary (s.boundaryTurned b n x).served n

/-- After the current pass was closed. -/
def State.boundaryClosed : State := (s.boundarySwapped b n x).1.closePass (s.boundarySwapped b n x).2

/-- Before the new pass. -/
def State.boundaryReady : State :=
  ((s.boundaryClosed b n x).exchangeBuffers.copyChannels.withOut
    (s.boundaryClosed b n x).exchangeBuffers.copyChannels.out.takeSilencePending).drainAtBoundary

theorem State.boundary_eq : s.boundary b n x =
    (if (s.boundaryReady b n x).passMayBegin && !x then (s.boundaryReady b n x).beginPass b
     else (s.boundaryReady b n x).beginNoPass n).reapEnding.advanceMem := rfl

theorem State.boundaryTurned_keeps : (s.boundaryTurned b n x).store = s.store ∧ (s.boundaryTurned b n x).ramps = s.ramps ∧
    (s.boundaryTurned b n x).gens = s.gens ∧ (s.boundaryTurned b n x).mem = s.mem ∧
    (s.boundaryTurned b n x).link = (s.turnBlock n).link ∧
    SameButNotices s.records (s.boundaryTurned b n x).records ∧ (s.boundaryTurned b n x).passSerial = s.passSerial ∧
    (s.boundaryTurned b n x).out.recorded = s.out.recording ∧ (s.boundaryTurned b n x).out.recording = [] ∧
    (x = false → s.boundaryTurned b n x = s.turnBlock n) := by
  unfold State.boundaryTurned
  split
  · rename_i hx
    refine ⟨by simp, by simp, by simp, by simp, by simp, ?_, by simp, ?_, ?_, by simp [hx]⟩
    · have h : ((s.turnBlock n).renumber b n).records = s.records.queueNotice (linkNotice true n b) := by
        simp [State.renumber, State.queueNotice]
      rw [h]; exact sameButNotices_queueNotice _ _
    · simp [State.renumber, State.abandonPass_out]; rfl
    · simp [State.renumber, State.abandonPass_out]; rfl
  · exact ⟨rfl, rfl, rfl, rfl, rfl, .refl _, rfl, rfl, rfl, fun _ => rfl⟩

theorem State.stepGenerators_records : SameButNotices s.records (s.stepGenerators n).records := by
  unfold State.stepGenerators
  split
  · exact sameButNotices_queueNotices _ _
  · exact .refl _

theorem State.stepGenerators_gens : (s.stepGenerators n).gens =
    if s.records.node = .quiescent then s.gens else s.gens.map Generator.stepped := by
  unfold State.stepGenerators State.gensStep
  cases s.records.node <;> simp

/-- Putting one bank's tap ramps in place leaves the master ramps. -/
theorem Ramps.withTaps_rest (r : Ramps) (k : BankNo) (y : List (Option Ramp)) : (r.withTaps k y).masters = r.masters ∧
    (r.withTaps k y).unitA = r.unitA ∧ (r.withTaps k y).unitB = r.unitB := by
  unfold Ramps.withTaps; split <;> simp

/-- What judging the pending swap leaves of the record engine, the channel table and the master ramps. -/
theorem State.swapAtBoundary_rest (served : List (Fin 4)) :
    (s.swapAtBoundary served n).1.store.channels = s.store.channels ∧
    (s.swapAtBoundary served n).1.ramps.masters = s.ramps.masters ∧
    (s.swapAtBoundary served n).1.ramps.unitA = s.ramps.unitA ∧ (s.swapAtBoundary served n).1.ramps.unitB = s.ramps.unitB ∧
    (s.swapAtBoundary served n).1.records.node = s.records.node ∧
    (s.swapAtBoundary served n).1.records.drain = s.records.drain ∧
    (s.swapAtBoundary served n).1.records.awaitingMute = s.records.awaitingMute ∧
    (s.swapAtBoundary served n).1.records.live = s.records.live ∧
    (s.swapAtBoundary served n).1.records.restarts = s.records.restarts ∧
    (s.swapAtBoundary served n).1.records.assembly = s.records.assembly := by
  have e : ∀ u : State, u.endFade.store.channels = u.store.channels ∧ u.endFade.ramps.masters = u.ramps.masters ∧
      u.endFade.ramps.unitA = u.ramps.unitA ∧ u.endFade.ramps.unitB = u.ramps.unitB := by
    intro u; unfold State.endFade Ramps.withTaps; split <;> simp
  have k : ∀ u : State, u.fadeCheck.store.channels = u.store.channels ∧ u.fadeCheck.ramps.masters = u.ramps.masters ∧
      u.fadeCheck.ramps.unitA = u.ramps.unitA ∧ u.fadeCheck.ramps.unitB = u.ramps.unitB := by
    intro u; unfold State.fadeCheck; split <;> simp [e]
  have xb : ∀ (u : State) (f : Fade), (u.exchangeBanks f).store.channels = u.store.channels ∧
      (u.exchangeBanks f).ramps.masters = u.ramps.masters ∧ (u.exchangeBanks f).ramps.unitA = u.ramps.unitA ∧
      (u.exchangeBanks f).ramps.unitB = u.ramps.unitB := by
    intro u f; simp [State.exchangeBanks, Ramps.forSwap, Ramps.withTaps_rest]
  have t : ∀ (u : State) (w : PendingSwap) (o : RecordOutcome), (u.takeSwap w o n).store.channels = u.store.channels ∧
      (u.takeSwap w o n).ramps.masters = u.ramps.masters ∧ (u.takeSwap w o n).ramps.unitA = u.ramps.unitA ∧
      (u.takeSwap w o n).ramps.unitB = u.ramps.unitB ∧ (u.takeSwap w o n).records.node = u.records.node ∧
      (u.takeSwap w o n).records.drain = u.records.drain ∧
      (u.takeSwap w o n).records.awaitingMute = u.records.awaitingMute ∧
      (u.takeSwap w o n).records.live = u.records.live ∧ (u.takeSwap w o n).records.restarts = u.records.restarts ∧
      (u.takeSwap w o n).records.assembly = u.records.assembly := by
    intro u w o
    unfold State.takeSwap
    dsimp only
    split <;> simp [State.popTable, State.complete, State.queueNotice, xb, e]
  unfold State.swapAtBoundary
  split
  · simp [k]
  · split
    · exact t _ _ _
    · simp [k]

/-- The input blocks, the numbers and the counts after a boundary. -/
theorem State.boundary_link : (s.boundary b n x).link = { s.link with
    complete := s.link.filling, filling := [], block := n, badRun := 0, lostZero := false } := by
  have h : (s.boundaryTurned b n x).link = (s.turnBlock n).link := (s.boundaryTurned_keeps b n x).2.2.2.2.1
  rw [State.boundary_eq]
  have k : (s.boundaryReady b n x).link = (s.boundaryTurned b n x).link := by
    simp [State.boundaryReady, State.boundaryClosed, State.boundarySwapped]
  split <;> simp [k, h] <;> rfl

theorem State.boundaryReady_keeps :
    (s.boundaryReady b n x).link = (s.boundaryTurned b n x).link ∧
    (s.boundaryReady b n x).lines = (s.boundaryTurned b n x).lines ∧
    (s.boundaryReady b n x).mem = s.mem ∧ (s.boundaryReady b n x).passSerial = s.passSerial ∧
    (s.boundaryReady b n x).gens = (if s.records.node = .quiescent then s.gens else s.gens.map Generator.stepped) ∧
    (s.boundaryReady b n x).ramps.masters = s.ramps.masters ∧ (s.boundaryReady b n x).ramps.unitA = s.ramps.unitA ∧
    (s.boundaryReady b n x).ramps.unitB = s.ramps.unitB ∧
    (s.boundaryReady b n x).store.channels = s.store.channels ∧
    (s.boundaryReady b n x).out.recorded = s.out.recording ∧ (s.boundaryReady b n x).out.recording = [] ∧
    (s.boundaryReady b n x).out.filling = OutBuffer.zeros ∧
    (s.boundaryReady b n x).out.insert = (s.boundaryClosed b n x).out.filling ∧
    (s.boundaryReady b n x).out.copy = tab 16 (fun c => ⟨(s.store.channel c).slot, (s.store.channel c).group⟩) ∧
    (s.boundaryReady b n x).tap = (s.boundaryClosed b n x).tap ∧
    (s.boundaryReady b n x).ramps = (s.boundaryClosed b n x).ramps ∧
    (s.boundaryReady b n x).store = (s.boundaryClosed b n x).store := by
  obtain ⟨h1, h2, h3, h4, h5, h6, h7, h8, h9, _⟩ := s.boundaryTurned_keeps b n x
  have sw := State.swapAtBoundary_rest ((s.boundaryTurned b n x).stepGenerators n) n (s.boundaryTurned b n x).served
  have cl := State.closePass_rest (s.boundarySwapped b n x).1 (s.boundarySwapped b n x).2
  have ch : (s.boundaryClosed b n x).store.channels = s.store.channels := by
    unfold State.boundaryClosed
    rw [cl.2.1]
    simpa [State.boundarySwapped, h1] using sw.1
  have gs : (s.boundarySwapped b n x).1.gens =
      (if s.records.node = .quiescent then s.gens else s.gens.map Generator.stepped) := by
    simp only [State.boundarySwapped, State.swapAtBoundary_keeps, State.stepGenerators_gens, h3, h6.node]
  refine ⟨?_, ?_, ?_, ?_, ?_, ?_, ?_, ?_, ?_, ?_, ?_, ?_, ?_, ?_, ?_, ?_, ?_⟩
  · simp [State.boundaryReady, State.boundaryClosed, State.boundarySwapped]
  · simp [State.boundaryReady, State.boundaryClosed, State.boundarySwapped]
  · simp [State.boundaryReady, State.boundaryClosed, State.boundarySwapped, h4]
  · simp [State.boundaryReady, State.boundaryClosed, State.boundarySwapped, h7]
  · simp [State.boundaryReady, State.boundaryClosed, gs]
  · simp [State.boundaryReady, State.boundaryClosed, State.boundarySwapped, sw.2.1, h2]
  · simp [State.boundaryReady, State.boundaryClosed, State.boundarySwapped, sw.2.2.1, h2]
  · simp [State.boundaryReady, State.boundaryClosed, State.boundarySwapped, sw.2.2.2.1, h2]
  · simp [State.boundaryReady, ch]
  · simp only [State.boundaryReady, State.drainAtBoundary_keeps, State.withOut_out, Output.takeSilencePending,
      State.copyChannels, State.exchangeBuffers, State.boundaryClosed, cl.2.2.2.1]
    simpa [State.boundarySwapped] using h8
  · simp only [State.boundaryReady, State.drainAtBoundary_keeps, State.withOut_out, Output.takeSilencePending,
      State.copyChannels, State.exchangeBuffers, State.boundaryClosed, cl.2.2.2.2.1]
    simpa [State.boundarySwapped] using h9
  · simp [State.boundaryReady, Output.takeSilencePending, State.copyChannels, State.exchangeBuffers]
  · simp [State.boundaryReady, Output.takeSilencePending, State.copyChannels, State.exchangeBuffers]
  · have q : ∀ c, (s.boundaryClosed b n x).store.channel c = s.store.channel c := by
      intro c; unfold Store.channel; rw [ch]
    simp [State.boundaryReady, Output.takeSilencePending, State.copyChannels, State.exchangeBuffers, q]
  · simp [State.boundaryReady]
  · simp [State.boundaryReady]
  · simp [State.boundaryReady]

/-- The record engine before the new pass: the swap may pop the table-class queue, the drain may end. -/
theorem State.boundaryClosed_records : (s.boundaryClosed b n x).records.node = s.records.node ∧
    (s.boundaryClosed b n x).records.drain = s.records.drain ∧
    (s.boundaryClosed b n x).records.awaitingMute = s.records.awaitingMute ∧
    (s.boundaryClosed b n x).records.live = s.records.live ∧
    (s.boundaryClosed b n x).records.restarts = s.records.restarts ∧
    (s.boundaryClosed b n x).records.assembly = s.records.assembly := by
  have h6 := (s.boundaryTurned_keeps b n x).2.2.2.2.2.1.trans ((s.boundaryTurned b n x).stepGenerators_records n)
  have sw := State.swapAtBoundary_rest ((s.boundaryTurned b n x).stepGenerators n) n (s.boundaryTurned b n x).served
  have cl := (State.closePass_rest (s.boundarySwapped b n x).1 (s.boundarySwapped b n x).2).1
  obtain ⟨_, _, _, _, q5, q6, q7, q8, q9, q10⟩ := sw
  refine ⟨cl.node.trans (q5.trans h6.node), cl.drain.trans (q6.trans h6.drain),
    cl.awaitingMute.trans (q7.trans h6.awaitingMute), cl.live.trans (q8.trans h6.live),
    cl.restarts.trans (q9.trans h6.restarts), cl.assembly.trans (q10.trans h6.assembly)⟩

/-! ### The position that a boundary frame fills -/

theorem State.takePosition_link_at_zero (f : Frame) (h : s.link.expected = 0) :
    (s.takePosition (some f) false).link = { s.link with
      filling := if s.link.lostZero then s.link.filling else s.link.filling ++ [f.row]
      held := f.row, cellRx := some ⟨f.controlRow, false⟩, expected := 1, lostZero := s.link.lostZero } := by
  unfold State.takePosition
  simp [h, State.captured, Link.receive]

@[simp] theorem State.handover_filling : s.handover.link.filling = s.link.filling := by
  unfold State.handover
  split
  · rfl
  · dsimp only
    split <;> simp

/-- The filling input block after a position: the captured row at position 0 of a lost frame 0, else appended. -/
theorem State.takePosition_filling (f : Option Frame) (bad : Bool) : (s.takePosition f bad).link.filling =
    if s.link.expected = 0 ∧ bad = true then s.link.filling.set 0 (s.captured f bad)
    else if s.link.lostZero = true then s.link.filling else s.link.filling ++ [s.captured f bad] := by
  have q (p : Prop) [Decidable p] (x y : State) : (if p then x else y).link.filling =
      if p then x.link.filling else y.link.filling := apply_ite (fun t : State => t.link.filling) p x y
  unfold State.takePosition
  dsimp only
  by_cases h : s.link.expected = 0 ∧ bad = true <;> simp [q, h]

/-- A position keeps as many recorded rows as rows of the filling input block. -/
theorem State.takePosition_recording (f : Option Frame) (bad : Bool)
    (h : s.out.recording.length = s.link.filling.length) :
    (s.takePosition f bad).out.recording.length = (s.takePosition f bad).link.filling.length := by
  unfold State.takePosition
  dsimp only
  split <;> simp <;> split <;> simp_all <;> split <;> simp_all

theorem State.takePosition_out (f : Option Frame) : (s.takePosition f x).out =
    { s.out with recording := (s.takePosition f x).out.recording } := by
  unfold State.takePosition
  dsimp only
  split <;> simp

theorem State.takePosition_records_at_zero (f : Option Frame) (h : s.link.expected = 0) :
    (s.takePosition f x).records = s.records := by
  unfold State.takePosition
  simp [h]

theorem State.placeNotice_link (f : Frame) :
    (s.placeNotice f).link = { s.link with cellTx := (s.placeNotice f).link.cellTx } := by
  unfold State.placeNotice
  split <;> [split; skip] <;> simp

theorem State.placeNotice_records (f : Frame) : SameButNotices s.records (s.placeNotice f).records := by
  unfold State.placeNotice
  split <;> [split; skip]
  · constructor <;> simp
  · exact .refl _
  · exact .refl _

/-- A good frame of index 0 at the expected index 0 in LOCKED. -/
theorem State.lockedArrival_good {s : State} {f : Frame} (h3 : s.link.expected = 0) (h4 : f.good = true) (h5 : f.index = 0) :
    s.lockedArrival f = ((((s.withLink { s.link with gapTimer := .oneAndHalfPeriods }).boundary s.link.block f.block
      (f.block != s.link.block + 1)).placeNotice f).takePosition (some f) false) := by
  have d : (s.withLink { s.link with gapTimer := .oneAndHalfPeriods }).link.damages f = false := by
    simp [Link.damages, State.withLink, h3, h4, h5]
  unfold State.lockedArrival
  dsimp only
  rw [d]
  simp only [Bool.false_eq_true, if_false]
  rw [if_pos (by simpa using h3)]
  rfl

/-- The state in which a boundary frame's boundary is taken. -/
def State.beforeBoundary : State := (s.atArrival g).withLink { s.link with gapTimer := .oneAndHalfPeriods }

theorem State.arrival_boundary {s : State} {f : Frame} (h2 : s.link.state = .locked) (h3 : s.link.expected = 0)
    (h4 : f.good = true) (h5 : f.index = 0) : s.arrival f g =
    (((s.beforeBoundary g).boundary s.link.block f.block (f.block != s.link.block + 1)).placeNotice f).takePosition
      (some f) false := by
  have hl : (s.atArrival g).link = s.link := by simp
  unfold State.arrival State.takeArrival
  rw [hl, h2]
  dsimp only
  rw [State.lockedArrival_good (by rw [hl]; exact h3) h4 h5, hl]
  rfl

end Sys2Proof.Machine
end

