-- ==== Sys2Proof/Laws/Claims.lean ====
section
/-! SUPPORT. What a boundary queues, what its swap leaves of the ramps, how a frame leaves its position, how the controller
goes on, which passes end and how a notice fills its cell, each said once in the words of Safety. -/

namespace Sys2Proof.Machine

open Safety

/-! ### Notices -/

/-- The notices of `a` with `ns` queued after them, and the overflow flag so, are those of `b`. -/
def Queues (a : Records) (ns : List Notice) (b : Records) : Prop :=
  b.notices = (ns.foldl Records.queueNotice a).notices ∧ b.overflow = (ns.foldl Records.queueNotice a).overflow

/-- Queueing reads the notices and the overflow flag alone. -/
theorem queueNotices_congr (ns : List Notice) : ∀ a a' : Records, a.notices = a'.notices → a.overflow = a'.overflow →
    (ns.foldl Records.queueNotice a).notices = (ns.foldl Records.queueNotice a').notices ∧
    (ns.foldl Records.queueNotice a).overflow = (ns.foldl Records.queueNotice a').overflow := by
  induction ns with
  | nil => intro a a' h h'; exact ⟨h, h'⟩
  | cons n ns ih =>
    intro a a' h h'
    simp only [List.foldl_cons]
    apply ih <;> unfold Records.queueNotice <;> rw [h] <;> split <;> simp [h']

theorem Queues.trans {a b c : Records} {x y} (h : Queues a x b) (k : Queues b y c) : Queues a (x ++ y) c := by
  obtain ⟨h1, h2⟩ := h
  have := queueNotices_congr y b (x.foldl Records.queueNotice a) h1 h2
  unfold Queues at *
  rw [List.foldl_append]
  exact ⟨k.1.trans this.1, k.2.trans this.2⟩

theorem Queues.nothing (a b : Records) (h : b.notices = a.notices) (h' : b.overflow = a.overflow) : Queues a [] b := ⟨h, h'⟩

theorem Queues.all (a : Records) (ns) : Queues a ns (ns.foldl Records.queueNotice a) := ⟨rfl, rfl⟩

theorem Queues.one (a : Records) (n) : Queues a [n] (a.queueNotice n) := ⟨rfl, rfl⟩

theorem Queues.thenSame {a b c : Records} {x} (h : Queues a x b) (h1 : c.notices = b.notices) (h2 : c.overflow = b.overflow) :
    Queues a x c := ⟨h1.trans h.1, h2.trans h.2⟩

/-- R169: a completion queues one notice, or none for a DONE whose notify flag is clear. -/
theorem Records.complete_queues (a : Records) (b : Block) (tag : Half) (op : Op) (notify : Bool) (o : RecordOutcome) (c : Counts) :
    Queues a (if o = .done ∧ notify = false then [] else [.completion tag op.code o c b]) (a.complete b tag op notify o c) := by
  unfold Records.complete
  cases notify <;> cases o <;> simp <;> exact Queues.nothing _ _ rfl rfl

/-- R36: what judging the pending swap queues. -/
theorem State.swapAtBoundary_queues (s : State) (served n) (hl : s.link.state = .locked) (hb : s.link.block = n) :
    Queues s.records (match s.store.swap with
      | none => []
      | some w =>
        match w.due served n with
        | none => []
        | some o =>
          (if o = .done ∧ w.notify = false then [] else [.completion w.tag Op.swap.code o {} n]) ++ [.swap w.tag n])
      (s.swapAtBoundary served n).1.records := by
  have fc : Queues s.records [] s.fadeCheck.records := by
    unfold State.fadeCheck State.endFade; split <;> exact Queues.nothing _ _ (by simp) (by simp)
  unfold State.swapAtBoundary
  cases hsw : s.store.swap with
  | none => exact fc
  | some w =>
    dsimp only
    cases ho : w.due served n with
    | none => exact fc
    | some o =>
      dsimp only
      unfold State.takeSwap
      dsimp only
      have nb : ∀ (v : State), v.link = s.link → v.noticeBlock = n := by
        intro v hv; simp [State.noticeBlock, State.blockInProgress, hv, hl, hb]
      refine Queues.trans ?_ (Queues.one _ _)
      generalize hv : (((if s.store.fade then s.endFade else s).exchangeBanks w.fade).withStore
         { ((if s.store.fade then s.endFade else s).exchangeBanks w.fade).store with swap := none }) = v
      have vl : v.link = s.link := by rw [← hv]; split <;> simp [State.exchangeBanks, State.endFade]
      have vr : v.records = s.records := by rw [← hv]; split <;> simp [State.exchangeBanks, State.endFade]
      have := Records.complete_queues v.popTable.records v.popTable.noticeBlock w.tag .swap w.notify o {}
      have q : v.popTable.noticeBlock = n := nb _ (by simp [State.popTable, vl])
      rw [q] at this
      have e : Queues s.records [] v.popTable.records := Queues.nothing _ _ (by simp [State.popTable, vr]) (by simp [State.popTable, vr])
      have := e.trans this
      rw [List.nil_append] at this
      refine Queues.thenSame this ?_ ?_ <;> simp [State.complete, q]

/-- R111, R112: what FINISHING queues. -/
theorem State.finishPass_queues (u : State) (p : Pass) (w : Option WriteStage) (x) :
    Queues u.records ([0, 1, 2, 3].flatMap fun k : Fin 4 => (u.out.group k.val).detectNotice k (groupPeak p.snapshot.groups (p.values u.tap.acc) k) (p.number + 2)) (u.finishPass p w x).records := by
  have : (u.finishPass p w x).records = (u.formOutput p).records := by simp [State.finishPass]
  rw [this]
  exact Queues.all _ _

/-- R52: what a cut queues. -/
theorem State.countCut_queues (u : State) (p : Pass) : Queues u.records (cutNotices u p) (u.countCut p).records := by
  unfold State.countCut cutNotices; dsimp only
  split
  · exact Queues.one _ _
  · exact Queues.nothing _ _ rfl rfl

theorem detectorNotices_eq (o : Output) (p : Pass) (acc) : detectorNotices o p acc = [0, 1, 2, 3].flatMap fun k : Fin 4 => (o.group k.val).detectNotice k (groupPeak p.snapshot.groups (p.values acc) k) (p.number + 2) := rfl

/-- R51 to R53: what the close of the current pass queues. -/
theorem State.closePass_queues (u : State) (x) : Queues u.records (closeNotices u) (u.closePass x).records := by
  unfold State.closePass State.finishUncut closeNotices
  cases hp : u.tap.pass with
  | none => exact Queues.nothing _ _ rfl rfl
  | some p =>
    dsimp only
    cases hs : u.tap.state with
    | idle => exact Queues.nothing _ _ rfl rfl
    | writing =>
      have a := State.countCut_queues u p
      have b := State.finishPass_queues ((u.countCut p).withTap { (u.countCut p).tap with acc := clearedAccumulators }) p (some p.write) x
      dsimp only; rw [detectorNotices_eq]
      refine a.trans ?_
      simpa using b
    | tapping =>
      have a := State.countCut_queues u p
      have b := State.finishPass_queues (u.countCut p) p none x
      dsimp only; rw [detectorNotices_eq]
      refine a.trans ?_
      have c : (u.countCut p).tap.acc = u.tap.acc := by unfold State.countCut; dsimp only; split <;> simp
      simpa [c] using b
    | finishing =>
      dsimp only; rw [detectorNotices_eq]
      simpa using State.finishPass_queues u p none x

/-- R89: what the end of a drain queues. -/
theorem State.drainAtBoundary_queues (u : State) (n) (hl : u.link.state = .locked) (hb : u.link.block = n) : Queues u.records (muteNotices u n) u.drainAtBoundary.records := by
  unfold State.drainAtBoundary muteNotices
  cases hn : u.records.node <;> try exact Queues.nothing _ _ rfl rfl
  cases hd : u.records.drain with
  | none => exact Queues.nothing _ _ rfl rfl
  | some k =>
    cases k with
    | zero => exact Queues.nothing _ _ rfl rfl
    | succ k =>
      simp only [Nat.le_add_left, if_true]
      unfold State.completeMutes
      have nb : (u.withRecords { u.records with node := .muted, drain := none }).noticeBlock = n := by
        simp [State.noticeBlock, State.blockInProgress, hl, hb]
      rw [nb]
      have key : ∀ (l : List AwaitingMute) (a : Records), Queues a ((l.filter AwaitingMute.notify).map fun m => .completion m.tag Op.state.code .done {} n)
          (l.foldl (fun r m => r.complete n m.tag .state m.notify .done {}) a) := by
        intro l
        induction l with
        | nil => intro a; exact Queues.nothing _ _ rfl rfl
        | cons m l ih =>
          intro a
          have c := Records.complete_queues a n m.tag .state m.notify .done {}
          have := c.trans (ih _)
          cases hm : m.notify <;> simp [hm] at this ⊢ <;> exact this
      have e : Queues u.records [] { (u.withRecords { u.records with node := .muted, drain := none }).records with awaitingMute := [] } := Queues.nothing _ _ rfl rfl
      exact e.trans (key _ _)

theorem State.boundaryTurned_queues (u : State) (b n : Block) (x : Bool) : Queues u.records
    (if x then [.link true n b (n - b)] else []) (u.boundaryTurned b n x).records := by
  unfold State.boundaryTurned
  split
  · have h : ((u.turnBlock n).renumber b n).records = u.records.queueNotice (linkNotice true n b) := by
      simp [State.renumber, State.queueNotice]
    rw [h]; exact Queues.one _ _
  · exact Queues.nothing _ _ rfl rfl

theorem State.stepGenerators_queues (u : State) (n) : Queues u.records (if u.records.node = .quiescent then []
        else [0, 1, 2, 3].flatMap fun k : Fin 4 => (u.gens.getD k.val Generator.reset).stepNotices k n) (u.stepGenerators n).records := by
  unfold State.stepGenerators State.gensStep
  cases u.records.node <;> first | exact Queues.nothing _ _ rfl rfl | exact Queues.all _ _

/-- The detectors' notices do not read the trip states of source B. -/
theorem detectorNotices_congr (o o' : Output) (p : Pass) (acc) (h : ∀ k : Fin 4, ∃ b, o'.group k.val = { o.group k.val with bTripped := b }) : detectorNotices o' p acc = detectorNotices o p acc := by
  unfold detectorNotices
  congr 1
  funext k
  obtain ⟨b, hb⟩ := h k
  simp only [hb]
  simp only [GuardGroup.detect, GuardGroup.nextCount]
  (repeat' split) <;> simp_all

/-- What a boundary queues, block by block (log 10). -/
theorem State.boundary_queues (u : State) (n : Block) (x : Bool) (hl : u.link.state = .locked) : Queues u.records
   ((if x then [.link true n u.link.block (n - u.link.block)] else [])
    ++ (if u.records.node = .quiescent then []
        else [0, 1, 2, 3].flatMap fun k : Fin 4 => (u.gens.getD k.val Generator.reset).stepNotices k n)
    ++ swapNotices u n ++ (if x then [] else closeNotices u) ++ muteNotices u n) (u.boundary u.link.block n x).records := by
  obtain ⟨k1, k2, k3, k4, k5, k6, k7, k8, k9, k10⟩ := u.boundaryTurned_keeps u.link.block n x
  have a := State.boundaryTurned_queues u u.link.block n x
  have b := State.stepGenerators_queues (u.boundaryTurned u.link.block n x) n
  rw [k6.node, k3] at b
  have c := State.swapAtBoundary_queues ((u.boundaryTurned u.link.block n x).stepGenerators n) (u.boundaryTurned u.link.block n x).served n
     (by simp [k5, State.turnBlock, hl]) (by simp [k5, State.turnBlock])
  have sv : (u.boundaryTurned u.link.block n x).served = u.served := by simp [State.served, State.gensStep, k6.node, k3]
  have d := State.closePass_queues (u.boundarySwapped u.link.block n x).1 (u.boundarySwapped u.link.block n x).2
  have de : closeNotices (u.boundarySwapped u.link.block n x).1 = (if x then [] else closeNotices u) := by
    have ht : (u.boundarySwapped u.link.block n x).1.tap = (u.boundaryTurned u.link.block n x).tap := by simp [State.boundarySwapped]
    have ho : (u.boundarySwapped u.link.block n x).1.out = (u.boundaryTurned u.link.block n x).out := by simp [State.boundarySwapped]
    cases x with
    | true =>
      have : (u.boundaryTurned u.link.block n true).tap.pass = none := by
        simp [State.boundaryTurned, State.renumber, State.abandonPass_tap]
      unfold closeNotices; rw [ht, this]; rfl
    | false =>
      have e := k10 rfl
      rw [e] at ht ho
      unfold closeNotices cutNotices detectorNotices
      rw [ht, ho]
      rfl
  rw [de] at d
  have r6 := u.boundaryClosed_records u.link.block n x
  have m := State.drainAtBoundary_queues ((u.boundaryClosed u.link.block n x).exchangeBuffers.copyChannels.withOut
    (u.boundaryClosed u.link.block n x).exchangeBuffers.copyChannels.out.takeSilencePending) n
    (by simp [State.exchangeBuffers, State.copyChannels, State.boundaryClosed, State.boundarySwapped, k5, State.turnBlock, hl])
    (by simp [State.exchangeBuffers, State.copyChannels, State.boundaryClosed, State.boundarySwapped, k5, State.turnBlock])
  have me : muteNotices ((u.boundaryClosed u.link.block n x).exchangeBuffers.copyChannels.withOut
    (u.boundaryClosed u.link.block n x).exchangeBuffers.copyChannels.out.takeSilencePending) n = muteNotices u n := by
    unfold muteNotices
    simp [State.exchangeBuffers, State.copyChannels, r6]
  rw [me] at m
  have all := ((((a.trans b).trans c).trans d).trans m)
  have cs : (match ((u.boundaryTurned u.link.block n x).stepGenerators n).store.swap with
  | none => []
  | some w =>
    match w.due (u.boundaryTurned u.link.block n x).served n with
    | none => []
    | some o => (if o = .done ∧ w.notify = false then [] else [.completion w.tag Op.swap.code o {} n]) ++ [.swap w.tag n]) = swapNotices u n := by
    rw [sv]; simp only [State.stepGenerators_keeps, k1]; rfl
  rw [cs] at all
  refine Queues.thenSame all ?_ ?_
  · rw [State.boundary_eq]; split <;> simp [State.beginPass, State.beginNoPass, State.muteCheck, State.boundaryReady] <;> split <;> simp
  · rw [State.boundary_eq]; split <;> simp [State.beginPass, State.beginNoPass, State.muteCheck, State.boundaryReady] <;> split <;> simp

/-! ### The swap of a boundary and the ramps -/

/-- R32 to R34: the judging of a pending swap, in the words of Safety. -/
theorem State.comesDue_iff (s : State) (w : PendingSwap) (n : Block) : (∃ o, w.due s.served n = some o) ↔ ComesDue s w n := by
  unfold PendingSwap.due ComesDue
  cases w.trigger with
  | next => simp
  | atBlock m =>
    dsimp only
    by_cases l : w.late = true
    · simp [l]
    · by_cases e : n = m
      · simp [l, e]
      · simp [l, e, blockAfter, blockBefore]
  | onCompare k =>
    dsimp only
    have : s.served.contains k = true ↔ s.records.node ≠ .quiescent ∧ (genOf s.gens k).compares = true := by
      unfold State.served State.gensStep
      have al : ∀ k : Fin 4, k ∈ allGens := by decide
      cases s.records.node <;> simp [al]
    rw [← this]
    by_cases c : s.served.contains k = true <;> simp [c]

theorem State.swapAtBoundary_judges (s : State) (n : Block) (u : State) (hs : u.store = s.store) (hr : u.ramps = s.ramps) :
   RampsJudged s n (u.swapAtBoundary s.served n).1.ramps := by
  have ts : ∀ (w : PendingSwap) (o o') , (u.takeSwap w o n).ramps = (s.takeSwap w o' n).ramps := by
    intro w o o'
    unfold State.takeSwap State.exchangeBanks State.endFade
    dsimp only
    rw [hs]
    split <;> simp [hs, hr, State.popTable, State.complete, State.queueNotice]
  refine ⟨?_, ?_, ?_⟩
  · intro w hw hd
    obtain ⟨o, ho⟩ := (State.comesDue_iff s w n).2 hd
    unfold State.swapAtBoundary
    rw [hs, hw]; dsimp only; rw [ho]
    exact ts w o .done
  · intro hn hf he
    have : u.swapAtBoundary s.served n = (u.fadeCheck, false) := by
      unfold State.swapAtBoundary
      rw [hs]
      cases hw : s.store.swap with
      | none => rfl
      | some w =>
        dsimp only
        cases ho : w.due s.served n with
        | none => rfl
        | some o => exact absurd ((State.comesDue_iff s w n).1 ⟨o, ho⟩) (hn w hw)
    rw [this]
    have : (u.store.fade && u.store.endReady) = true := by rw [hs, hf, he]; rfl
    unfold State.fadeCheck
    rw [if_pos this]
    simp only [State.endFade, State.withRamps_ramps, State.withStore_ramps, State.withStore_store, hr, hs, Store.idleBank]
    rfl
  · intro hn hf
    have : u.swapAtBoundary s.served n = (u.fadeCheck, false) := by
      unfold State.swapAtBoundary
      rw [hs]
      cases hw : s.store.swap with
      | none => rfl
      | some w =>
        dsimp only
        cases ho : w.due s.served n with
        | none => rfl
        | some o => exact absurd ((State.comesDue_iff s w n).1 ⟨o, ho⟩) (hn w hw)
    rw [this]
    simp only [State.fadeCheck, hs]
    rcases hf with hf | hf <;> simp [hf, hr]

theorem rampsJudged_congr (s u : State) (n : Block) (h1 : u.store = s.store) (h2 : u.ramps = s.ramps) (h3 : u.gens = s.gens) (h4 : u.records.node = s.records.node) (r)
  (h : RampsJudged u n r) : RampsJudged s n r := by
  have c : ∀ w, ComesDue u w n ↔ ComesDue s w n := by intro w; unfold ComesDue; rw [h3, h4]
  have ts : ∀ (w : PendingSwap) (o) , (u.takeSwap w o n).ramps = (s.takeSwap w o n).ramps := by
    intro w o
    unfold State.takeSwap State.exchangeBanks State.endFade
    dsimp only
    rw [h1]
    split <;> simp [h1, h2, State.popTable, State.complete, State.queueNotice]
  obtain ⟨a, b, d⟩ := h
  rw [h1] at a b d
  rw [h2] at b d
  refine ⟨fun w hw hd => (a w hw ((c w).2 hd)).trans (ts w _), fun hn => b (fun w hw hd => hn w hw ((c w).1 hd)), fun hn => d (fun w hw hd => hn w hw ((c w).1 hd))⟩

/-- R35, R37: the ramps of a boundary before the new pass. -/
theorem State.boundaryClosed_judges (u : State) (b n x) : RampsJudged u n (u.boundaryClosed b n x).ramps := by
  obtain ⟨k1, k2, k3, k4, k5, k6, k7, k8, k9, k10⟩ := u.boundaryTurned_keeps b n x
  have : (u.boundaryClosed b n x).ramps = (((u.boundaryTurned b n x).stepGenerators n).swapAtBoundary (u.boundaryTurned b n x).served n).1.ramps := by
    simp [State.boundaryClosed, State.boundarySwapped]
  rw [this]
  have := State.swapAtBoundary_judges (u.boundaryTurned b n x) n ((u.boundaryTurned b n x).stepGenerators n) (by simp) (by simp)
  exact rampsJudged_congr u _ n k1 k2 k3 k6.node _ this
/-! ### A frame as it leaves -/

/-- A slot held by one channel alone is that channel's. -/
theorem Output.channelOf_eq (o : Output) (h : ∀ c < 16, ∀ c' < 16, ∀ n, (o.copy.getD c ⟨none, none⟩).slot = some n →
    (o.copy.getD c' ⟨none, none⟩).slot = some n → c = c') (c : Nat) (hc : c < 16) (n : Fin 128) (e : (o.copy.getD c ⟨none, none⟩).slot = some n) : o.channelOf n.val = some c := by
  unfold Output.channelOf
  cases hf : (List.range 16).find? fun c => ((o.copy.getD c ⟨none, none⟩).slot.map Fin.val) == some n.val with
  | none =>
    rw [List.find?_eq_none] at hf
    have := hf c (List.mem_range.2 hc)
    rw [e] at this; simp at this
  | some d =>
    have m := List.mem_of_find?_eq_some hf
    have p := List.find?_some hf
    have : (o.copy.getD d ⟨none, none⟩).slot = some n := by
      cases q : (o.copy.getD d ⟨none, none⟩).slot with
      | none => rw [q] at p; simp at p
      | some z => rw [q] at p; simp at p; rw [Fin.ext p]
    rw [h d (List.mem_range.1 m) c hc n this e]

theorem Output.channelOf_none (o : Output) (n : Fin 128) (e : ∀ c < 16, (o.copy.getD c ⟨none, none⟩).slot ≠ some n) : o.channelOf n.val = none := by
  unfold Output.channelOf
  rw [List.find?_eq_none]
  intro c hc
  have := e c (List.mem_range.1 hc)
  cases q : (o.copy.getD c ⟨none, none⟩).slot with
  | none => simp
  | some z => rw [q] at this; simp at this ⊢; exact fun w => this (Fin.ext w)

/-- R151, Table 31: how a forwarded frame leaves its position. -/
theorem State.forwarded_leaves (s : State) (f : Frame) (i : Nat) (bad : Bool)  (h : ∀ c < 16, ∀ c' < 16, ∀ n, (s.out.copy.getD c ⟨none, none⟩).slot = some n →
    (s.out.copy.getD c' ⟨none, none⟩).slot = some n → c = c') : LeavesAs s.records.node s.link.lostZero s.out s.link.cellTx i f (s.forwarded f i bad) (s.recordRow i) := by
  have xs : (s.forwarded f i bad).slots = s.slotsOut f i := by
    unfold State.forwarded; dsimp only; generalize (if bad = true then f.flags ||| 1 else f.flags) = q; split
    · rename_i e; exact (congrArg Frame.slots e).symm
    · rfl
  have xc : (s.forwarded f i bad).control = s.controlOut f i := by
    unfold State.forwarded; dsimp only; generalize (if bad = true then f.flags ||| 1 else f.flags) = q; split
    · rename_i e; exact (congrArg Frame.control e).symm
    · rfl
  refine ⟨?_, ?_, ?_, ?_⟩
  · intro n e
    rw [xs, State.slotsOut, getD_tab _ _ _ _ n.isLt, Output.channelOf_none _ n e]
  · intro n c hc e
    rw [xs, State.slotsOut, getD_tab _ _ _ _ n.isLt, Output.channelOf_eq _ h c hc n e]
    dsimp only
    unfold State.insertion
    rw [e]
    cases s.records.node <;> simp [insertsAs] <;> split <;> rfl
  · intro c hc
    rw [State.recordRow, getD_tab _ _ _ _ hc]
    unfold State.insertion
    cases e : (s.out.copy.getD c ⟨none, none⟩).slot with
    | none => simp
    | some n => simp only [reduceCtorEq, if_false]; cases s.records.node <;> simp [insertsAs] <;> split <;> rfl
  · intro k hk
    rw [xc, State.controlOut]
    cases s.link.cellTx with
    | none => rfl
    | some b => exact getD_tab _ _ _ _ hk
/-! ### The controller goes on -/

/-- R139: the count of passes begun and not ended is 0 just when none is. -/
theorem State.passCount_zero (t : State) : t.passCount = 0 ↔ NoPass t := by
  unfold State.passCount NoPass
  cases t.tap.pass <;> cases t.tap.ending <;> simp

/-- R134, Table 28: the service time of a burst in the words of Safety. -/
theorem MemController.burstTime_eq (m : MemController) (q : BurstRequest) : m.burstTime q = servicePeriods m q := by
  unfold MemController.burstTime servicePeriods MemController.openRow MemController.accessPeriods BurstRequest.bank
    BurstRequest.row
  cases m.bankTable.getD (bankOf q.position.val) none with
  | none => rfl
  | some r =>
    by_cases h : r.val = rowOf q.line.val q.position.val
    · simp only [Option.map_some, if_pos h]; simp; rfl
    · simp only [Option.map_some, if_neg h]; rfl

/-- R134, R137, R138: what a free controller takes from its queue. -/
theorem MemController.serveQueue_next (m : MemController) (h : m.service = .none) : NextOfQueue m.serveQueue := by
  unfold MemController.serveQueue
  split
  case h_1 hq =>
    split
    case isTrue ho =>
      exact ⟨fun _ k => absurd ho (by simp only [MemController.serveRefresh, MemController.serve] at k; omega),
        fun _ => ⟨rfl, rfl⟩, fun q rest k => by simp [MemController.serveRefresh, MemController.serve, hq] at k⟩
    case isFalse ho => exact ⟨fun _ _ => h, fun k => by simp [hq] at k; omega, fun q rest k => by simp [hq] at k⟩
  case h_2 q rest hq =>
    split
    case isTrue ho =>
      exact ⟨fun k => by simp [MemController.serveRefresh, MemController.serve, hq] at k, fun _ => ⟨rfl, rfl⟩,
        fun _ _ _ k => absurd ho (by simp only [MemController.serveRefresh, MemController.serve] at k; omega)⟩
    case isFalse ho =>
      refine ⟨fun k => by simp [MemController.serve, hq] at k, fun k => by simp [MemController.serve, hq] at k; omega, ?_⟩
      intro q' rest' k _
      simp only [MemController.serve, hq, List.cons.injEq] at k
      obtain ⟨rfl, rfl⟩ := k
      exact ⟨rfl, m.burstTime_eq q⟩

theorem MemController.serveQueue_rest (m : MemController) :
    m.serveQueue = { m with service := m.serveQueue.service, periods := m.serveQueue.periods } := by
  unfold MemController.serveQueue MemController.serveRefresh MemController.serve
  split <;> split <;> rfl

/-- R128, R130, R134, R137 to R139: what the controller does when it goes on. -/
theorem MemController.advance_goesOn (m : MemController) (t : State) (h : t.mem = m.advance t.passCount) : GoesOn m t := by
  have hp := t.passCount_zero
  have fromQueue : m.state ≠ .draining ∨ ¬NoPass t → m.service = .none →
      m.state = .ready ∨ m.state = .draining ∨ m.state = .entering →
      (m.state = .entering → ¬(NoPass t ∧ m.queue = [] ∧ m.owed = 0)) → t.mem = m.serveQueue → GoesOn m t := by
    intro hd hs hst he hm
    have hn := m.serveQueue_next hs
    have hr := m.serveQueue_rest
    rw [← hm] at hn hr
    have e : t.mem.state = m.state ∧ t.mem.queue = m.queue ∧ t.mem.owed = m.owed := by
      rw [hr]; exact ⟨rfl, rfl, rfl⟩
    refine ⟨by rw [hr], fun a b => ?_, fun _ => by rw [hr]; exact ⟨rfl, rfl⟩, fun a => absurd hs a, fun _ _ => hn,
      fun _ _ _ => hn, fun _ a b c d => ?_, fun _ a => ?_, fun _ a => ?_⟩
    · rcases hd with k | k
      · exact absurd a k
      · exact absurd b k
    · rw [e.1] at a; rw [e.2.1] at c; rw [e.2.2] at d
      exact absurd ⟨b, c, d⟩ (he a)
    · rw [e.1] at a; simp [a] at hst
    · rw [e.1] at a; rcases a with a | a | a | a <;> simp [a] at hst
  unfold MemController.advance at h
  by_cases hd : m.state = .draining ∧ t.passCount = 0
  · simp only [if_pos hd] at h
    have hn := hp.mp hd.2
    by_cases hs : m.service = .none
    · simp only [hs, ne_eq, not_true_eq_false, if_false] at h
      by_cases ho : 0 < m.owed
      · simp only [if_pos ho] at h
        constructor <;> simp [h, MemController.serveRefresh, MemController.serve, prechargeAllPeriods, refreshPeriods, hn, hd.1, hs]
        omega
      · simp only [if_neg ho] at h
        constructor <;> simp [h, MemController.serve, hn, hd.1, hs, prechargeAllPeriods, modeSetPeriods, settlePeriods]
        omega
    · simp only [ne_eq, hs, not_false_eq_true, if_true] at h
      constructor <;> simp [h, hn, hd.1, hs]
  · simp only [if_neg hd] at h
    have hd' : m.state ≠ .draining ∨ ¬NoPass t := by
      by_cases k : m.state = .draining
      · exact .inr fun k' => hd ⟨k, hp.mpr k'⟩
      · exact .inl k
    by_cases hs : m.service = .none
    · simp only [hs, ne_eq, not_true_eq_false, if_false] at h
      cases hm : m.state <;> simp only [hm] at h
      case ready => exact fromQueue hd' hs (.inl hm) (fun k => by simp [hm] at k) h
      case draining => exact fromQueue hd' hs (.inr (.inl hm)) (fun k => by simp [hm] at k) h
      case entering =>
        by_cases k : NoPass t ∧ m.queue = [] ∧ m.owed = 0
        · rw [if_pos ⟨hp.mpr k.1, k.2⟩] at h
          constructor <;>
            simp [h, MemController.serve, hm, hs, k.1, k.2.1, k.2.2, prechargeAllPeriods, selfRefreshEntryPeriods]
        · rw [if_neg fun x => k ⟨hp.mp x.1, x.2⟩] at h
          exact fromQueue hd' hs (.inr (.inr hm)) (fun _ => k) h
      case setting =>
        by_cases ho : 0 < m.settingRefreshes
        · simp only [if_pos ho] at h
          constructor <;> simp [h, MemController.serveRefresh, MemController.serve, hm, hs, prechargeAllPeriods, refreshPeriods]
          omega
        · simp only [if_neg ho] at h
          constructor <;> simp [h, MemController.serve, hm, hs, prechargeAllPeriods, modeSetPeriods, settlePeriods]
          omega
      all_goals
        exact ⟨by rw [h], fun a => by simp [hm] at a, fun _ => by rw [h]; exact ⟨rfl, rfl⟩, fun a => absurd hs a,
          fun _ a => by simp [h, hm] at a, fun _ a => by simp [h, hm] at a, fun _ a => by simp [h, hm] at a,
          fun _ a => by simp [h, hm] at a, fun _ _ => by rw [h]; exact hs⟩
    · simp only [ne_eq, hs, not_false_eq_true, if_true] at h
      refine ⟨by rw [h], fun a b => ?_, fun _ => by rw [h]; exact ⟨rfl, rfl⟩, fun _ => by rw [h]; exact ⟨rfl, rfl⟩,
        fun a => absurd a hs, fun a => absurd a hs, fun a => absurd a hs, fun a => absurd a hs, fun a => absurd a hs⟩
      rcases hd' with k | k
      · exact absurd a k
      · exact absurd b k

/-- The shared form: a state whose controller has gone on. -/
theorem State.advanceMem_goesOn (u : State) : GoesOn u.mem u.advanceMem := u.mem.advance_goesOn _ rfl

/-- R129 to R131: the controller after a WAKE or a RESTART in the words of Safety. -/
theorem State.wake_woken (s u : State) (h : u.mem = s.mem.wake) : Woken s u.advanceMem := by
  have g := State.advanceMem_goesOn u
  rw [h] at g
  unfold MemController.wake at g
  refine ⟨fun a b => ?_, fun a b => ?_, fun a => ?_, fun a b => ?_⟩
  · simp [a, b] at g; exact g
  · simp [a, b] at g; exact g
  · simp [a] at g
    rw [g.rest, (g.kept (.inl (by simp [MemController.serve]))).1, (g.kept (.inl (by simp [MemController.serve]))).2,
      (g.busy (by simp [MemController.serve])).1, (g.busy (by simp [MemController.serve])).2]
    rfl
  · cases hs : s.mem.state <;> simp [hs] at a b g <;> simpa [hs] using g

/-! ### The ending passes -/

/-- R45, R139: what keeps an ending pass, in the words of Safety. -/
theorem stillEnding_eq (queue : List BurstRequest) (e : EndingPass) :
    (e.writesLeft || queue.any fun x => x.serial == e.serial) = stillEnding queue e := by
  unfold EndingPass.writesLeft stillEnding
  cases e.write <;> rfl

theorem State.reapEnding_ending (s : State) :
    s.reapEnding.tap.ending = s.tap.ending.filter (stillEnding s.mem.queue) := by
  unfold State.reapEnding
  simp only [State.withTap, stillEnding_eq]

theorem State.abandonPass_ending (s : State) :
    s.abandonPass.tap.ending = (abandonedPasses s).filter (stillEnding s.mem.queue) := by
  unfold State.abandonPass
  rw [State.reapEnding_ending]
  simp only [State.withTap_tap, State.withOut_tap, State.partialSaturation_keeps, State.withOut_mem, State.withTap_mem]
  unfold abandonedPasses
  cases s.tap.pass <;> simp

theorem TapEngine.endTapStage_ending (t : TapEngine) : t.endTapStage.ending = t.ending := by
  unfold TapEngine.endTapStage
  repeat' split
  all_goals rfl

theorem TapEngine.writeServed_ending (t : TapEngine) (n : Nat) : (t.writeServed n).ending = t.ending := by
  unfold TapEngine.writeServed
  split
  · split
    · dsimp only
      split
      · rw [TapEngine.endTapStage_ending]; rfl
      · rfl
    · rfl
  · rfl

theorem TapEngine.readReturned_ending (t : TapEngine) (q : BurstRequest) (w : List Word) :
    (t.readReturned q w).ending = t.ending := by
  unfold TapEngine.readReturned
  split
  · split
    · rw [TapEngine.endTapStage_ending]
      split
      · rfl
      · rfl
      · unfold TapEngine.tapReturned
        split
        · rfl
        · dsimp only; split <;> rfl
    · rfl
  · rfl

/-- R134: the access of a burst leaves the ending passes. -/
theorem State.access_ending (s : State) (q : BurstRequest) : (s.access q).tap.ending = s.tap.ending := by
  unfold State.access
  split
  · exact TapEngine.writeServed_ending _ _
  · exact TapEngine.readReturned_ending _ _ _

/-- R110 to R113: the detector of source A does not read the trip state of B. -/
theorem GuardGroup.detect_bTripped (g : GuardGroup) (b : Bool) (peak : Nat) :
    ({ g with bTripped := b }).detect peak = { g.detect peak with bTripped := b } := by
  obtain ⟨e, m, a, th, l, c, at', be, bm, ba, bt⟩ := g
  cases e <;> rfl

/-! ### The cell of a notice -/

theorem cellOf_getD (l : List Byte) (i : Nat) (h : i < 254) : (cellOf l).getD i 0 = l.getD i 0 := by
  unfold cellOf
  dsimp only
  have hl : (tab 254 fun i => l.getD i 0).length = 254 := by simp [tab]
  rw [List.getD_append _ _ _ _ (by rw [hl]; exact h), getD_tab _ _ _ _ h]

theorem cellOf_length (l : List Byte) : (cellOf l).length = 256 := by unfold cellOf; simp [tab, put2]

/-- The words of an even number of bytes are summed apart from those after them. -/
theorem wordSum_append : ∀ (n : Nat) (a b : List Byte), a.length = 2 * n → wordSum (a ++ b) = wordSum a + wordSum b := by
  intro n
  induction n with
  | zero =>
    intro a b h
    have : a = [] := by simpa using h
    subst this; simp [wordSum]
  | succ n ih =>
    intro a b h
    match a with
    | x :: y :: r =>
      have hr : r.length = 2 * n := by simp at h; omega
      simp only [List.cons_append, wordSum, ih r b hr]; omega
    | [x] => simp at h; omega
    | [] => simp at h

/-- R153: the check of a cell holds as it is formed. -/
theorem cellOf_check (l : List Byte) : cellCheckHolds (cellOf l) = true := by
  unfold cellOf cellCheckHolds
  dsimp only
  rw [wordSum_append 127 _ _ (by simp [tab])]
  generalize wordSum _ = n
  simp only [put2, wordSum, checkFor, BitVec.toNat_ofNat, beq_iff_eq]
  omega

end Sys2Proof.Machine
end

