-- ==== Sys2Proof/Laws/Memory.lean ====
section
/-! SUPPORT. The delay memory: reading after writing, and the canonical form that every memory operation keeps. -/

namespace Sys2Proof.Machine

/-! ### Bytes -/

/-- Reading after writing a byte. -/
@[simp] theorem Memory.read_write (m : List Host.Cell) (a c : Nat) (v : Byte) :
    Memory.read (Memory.write m a v) c = if c = a then some v else Memory.read m c := by
  induction m with
  | nil => simp [Memory.write, Memory.read, eq_comm]
  | cons x m ih =>
    obtain ⟨b, w⟩ := x
    simp only [Memory.write]
    split
    · by_cases h : c = a
      · simp [Memory.read, h]
      · simp [Memory.read, h]
    · split
      · subst b
        by_cases h : c = a
        · simp [Memory.read, h]
        · simp [Memory.read, h]
      · by_cases h : c = a
        · subst h
          simp [Memory.read, ih, ‹¬c = b›]
        · simp [Memory.read, ih, h]

theorem Memory.wfFrom_mono {lo hi : Nat} (h : lo ≤ hi) {m : List Host.Cell} (hm : Memory.wfFrom hi m) :
    Memory.wfFrom lo m := by
  cases m with
  | nil => rfl
  | cons x m =>
    simp only [Memory.wfFrom, Bool.and_eq_true, decide_eq_true_eq] at hm ⊢
    exact ⟨⟨h.trans hm.1.1, hm.1.2⟩, hm.2⟩

theorem Memory.wfFrom_write {lo a : Nat} (v : Byte) (hlo : lo ≤ a) (ha : a < Memory.size) {m : List Host.Cell}
    (hm : Memory.wfFrom lo m) : Memory.wfFrom lo (Memory.write m a v) := by
  induction m generalizing lo with
  | nil => simp [Memory.write, Memory.wfFrom, hlo, ha]
  | cons x m ih =>
    obtain ⟨b, w⟩ := x
    simp only [Memory.wfFrom, Bool.and_eq_true, decide_eq_true_eq] at hm
    obtain ⟨⟨h1, h2⟩, h3⟩ := hm
    simp only [Memory.write]
    split
    · simp only [Memory.wfFrom, Bool.and_eq_true, decide_eq_true_eq]
      exact ⟨⟨hlo, ha⟩, ⟨by omega, h2⟩, h3⟩
    · split
      · subst b
        simp only [Memory.wfFrom, Bool.and_eq_true, decide_eq_true_eq]
        exact ⟨⟨h1, h2⟩, h3⟩
      · simp only [Memory.wfFrom, Bool.and_eq_true, decide_eq_true_eq]
        exact ⟨⟨h1, h2⟩, ih (by omega) h3⟩

/-- Writing a byte of the device keeps the canonical form. -/
theorem Memory.wf_write {m : List Host.Cell} {a : Nat} (v : Byte) (ha : a < Memory.size) (hm : Memory.wf m) :
    Memory.wf (Memory.write m a v) := Memory.wfFrom_write v (Nat.zero_le _) ha hm

theorem Memory.wfFrom_filter (p : Host.Cell → Bool) {lo : Nat} {m : List Host.Cell} (hm : Memory.wfFrom lo m) :
    Memory.wfFrom lo (m.filter p) := by
  induction m generalizing lo with
  | nil => rfl
  | cons x m ih =>
    simp only [Memory.wfFrom, Bool.and_eq_true, decide_eq_true_eq] at hm
    by_cases h : p x
    · simp only [List.filter_cons, h, if_true, Memory.wfFrom, Bool.and_eq_true, decide_eq_true_eq]
      exact ⟨hm.1, ih hm.2⟩
    · simp only [List.filter_cons, h]
      exact ih (Memory.wfFrom_mono (by omega) hm.2)

/-- What an unrefreshed device keeps is in canonical form. -/
theorem State.wf_unrefreshed {s : State} (h : Memory.wf s.dram) : Memory.wf s.unrefreshed :=
  Memory.wfFrom_filter _ h

/-! ### Words -/

theorem wordOf_lt (line : Fin 64) (position : Fin 131072) : wordOf line.val position.val < 8388608 := by
  have := line.isLt
  have := position.isLt
  unfold wordOf wordNumber bankOf rowOf columnOf
  omega

theorem burstWord_lt (line : Fin 64) (position : Fin 131072) (i : Nat) : burstWord line position i < 8388608 :=
  wordOf_lt line _

/-- R4: the words of an aligned burst are eight consecutive columns of one row. -/
theorem burstWord_aligned (line : Fin 64) (position : Fin 131072) (h : position.val % 8 = 0) {i : Nat} (hi : i < 8) :
    burstWord line position i = wordOf line position + i := by
  have := position.isLt
  simp only [burstWord, linePosition, wordOf, wordNumber, bankOf, rowOf, columnOf]
  omega

theorem storeWord_wf {m : List Host.Cell} {w : Nat} (v : Word) (hw : w < 8388608) (hm : Memory.wf m) :
    Memory.wf (storeWord m w v) := by
  unfold storeWord
  have : Memory.size = 33554432 := rfl
  exact Memory.wf_write _ (by omega) (Memory.wf_write _ (by omega) (Memory.wf_write _ (by omega)
    (Memory.wf_write _ (by omega) hm)))

/-- A write burst keeps the canonical form. -/
theorem writeBurst_wf {m : List Host.Cell} (line : Fin 64) (position : Fin 131072) (values : List Sample)
    (hm : Memory.wf m) : Memory.wf (writeBurst m line position values) := by
  unfold writeBurst
  generalize List.range 8 = is
  induction is generalizing m with
  | nil => exact hm
  | cons i is ih => exact ih (storeWord_wf _ (burstWord_lt line position i) hm)

/-- A word is its four bytes. -/
theorem word_of_bytes (v : Word) :
    v.extractLsb' 24 8 ++ v.extractLsb' 16 8 ++ v.extractLsb' 8 8 ++ v.extractLsb' 0 8 = v := by
  ext i hi
  simp only [BitVec.getElem_append, BitVec.getElem_extractLsb']
  repeat' split
  all_goals (rw [← BitVec.getLsbD_eq_getElem]; congr 1; omega)

/-- Reading a word after storing one. -/
@[simp] theorem dramWord_storeWord (pc : Nat) (m : List Host.Cell) (w c : Nat) (v : Word) :
    dramWord pc (storeWord m w v) c = if c = w then v else dramWord pc m c := by
  by_cases h : c = w
  · subst h
    simp [dramWord, dramByteAt, storeWord, word_of_bytes]
  · simp only [dramWord, dramByteAt, storeWord, Memory.read_write, if_neg h]
    repeat rw [if_neg (by omega)]

/-- A write burst changes no word but its eight. -/
theorem dramWord_writeBurst_other (pc : Nat) (m : List Host.Cell) (line : Fin 64) (position : Fin 131072)
    (values : List Sample) (c : Nat) (h : ∀ i < 8, c ≠ burstWord line position i) :
    dramWord pc (writeBurst m line position values) c = dramWord pc m c := by
  unfold writeBurst
  have h : ∀ i ∈ List.range 8, c ≠ burstWord line position i := fun i hi => h i (List.mem_range.1 hi)
  generalize List.range 8 = is at h
  induction is generalizing m with
  | nil => rfl
  | cons i is ih =>
    rw [List.foldl_cons, ih _ fun j hj => h j (List.mem_cons_of_mem _ hj), dramWord_storeWord,
      if_neg (h i (List.mem_cons_self ..))]

end Sys2Proof.Machine
end

