-- ==== Sys2Proof/Laws/Step.lean ====
section
/-! SUPPORT. What a step can do, said once: a property is kept by every step when each effect of a command keeps it. -/

namespace Sys2Proof.Machine

variable {P : State → Prop} {s t : State}

theorem next_inj (h : (Host.Outcome.next s : Out) = .next t) : s = t := by
  injection h

/-- A command that is held by the reset pin, or leaves `u`. -/
theorem running_keeps {u : State} (h : (Host.Outcome.next (if s.resetPin then s else u) : Out) = .next t) (hs : P s)
    (hu : P u) : P t := by
  rw [← next_inj h]
  split <;> assumption

/-- A record of the table class that is not at the head changes nothing. -/
theorem atTableHead_keeps {op : Op} {f : Record → State} (hs : P s) (h : ∀ r, P (f r)) : P (s.atTableHead op f) := by
  unfold State.atTableHead
  repeat' split
  all_goals first | exact hs | exact h _

/-- A record of the live class that is not at the head changes nothing. -/
theorem atLiveHead_keeps {op : Op} {f : Record → State} (hs : P s) (h : ∀ r, P (f r)) : P (s.atLiveHead op f) := by
  unfold State.atLiveHead
  repeat' split
  all_goals first | exact hs | exact h _

/-- A STATE record completes MALFORMED, or has the effect of its request. -/
theorem stateRecord_keeps {n : Nat} {f : Record → State} (hs : P s) (h : ∀ r, P (f r))
    (hm : ∀ r, P (s.completeLive r .malformed {})) : P (s.stateRecord n f) := by
  unfold State.stateRecord State.liveList
  refine atLiveHead_keeps hs fun r => ?_
  repeat' split
  all_goals first | exact hs | exact h _ | exact hm _

/-- The effects of the commands, each of which keeps `P`, keep `P` together. -/
theorem exec_keeps {c : Instr} (ht : exec c s = .next t) (hs : P s)
    (power : ∀ p, P { s.powerOnValues with position := p }) (assert : P { s.powerOnValues with resetPin := true })
    (release : ∀ p, P { s with resetPin := false, position := p })
    (arrival : ∀ f g, P (s.arrival f g)) (gap : P s.gapExpiry)
    (request : P s.requestBurst) (burst : P s.endBurst) (finishing : P s.completeFinishing)
    (due : P s.refreshExpiry) (refresh : P s.endRefresh) (initialized : P s.endInitialization)
    (modeSet : P s.endModeSet) (entering : P s.endEntering) (leaving : P s.endLeaving)
    (tapWrite : s.store.fade = false → ∀ r, P (s.tapWrite r)) (tapClear : s.store.fade = false → ∀ r, P (s.tapClear r))
    (copyActive : s.store.fade = false → ∀ r, P (s.copyActive r)) (swap : ∀ r, P (s.swapRecord r))
    (lineMap : ∀ r, P (s.lineMap r)) (outputMap : ∀ r, P (s.outputMap r)) (memorySetup : ∀ r, P (s.memorySetup r))
    (tapGain : ∀ r, P (s.tapGain r)) (masterGain : ∀ r, P (s.masterGain r)) (override : ∀ r, P (s.override r))
    (guardSet : ∀ r, P (s.guardSet r)) (guardRelease : ∀ r, P (s.guardRelease r))
    (generatorSet : ∀ r, P (s.generatorSet r)) (generatorLoad : ∀ r, P (s.generatorLoad r))
    (rampSet : ∀ r, P (s.rampSet r)) (cancelSwap : ∀ r, P (s.cancelSwap r))
    (malformed : ∀ r, P (s.completeLive r .malformed {}))
    (mute : ∀ r, P (s.mute r)) (run : ∀ r, P (s.runNode r)) (quiesce : ∀ r, P (s.quiesce r)) (wake : ∀ r, P (s.wake r))
    (statusRead : ∀ r, P (s.statusRead r)) (restart : P s.restart) : P t := by
  have fading : ∀ u, (s.store.fade = false → P u) → P (s.unlessFading u) := by
    intro u hu
    unfold State.unlessFading
    split
    · exact hs
    · exact hu (by simp_all)
  cases c with
  | powerOn _ _ => exact next_inj ht ▸ power _
  | resetPinAssert =>
    rw [← next_inj ht]
    split
    · exact hs
    · exact assert
  | resetPinRelease _ _ =>
    rw [← next_inj ht]
    split
    · exact release _
    · exact hs
  | frameArrival f g => exact running_keeps ht hs (arrival f g)
  | frameGapExpiry => exact running_keeps ht hs gap
  | burstRequest => exact running_keeps ht hs request
  | burstServiceEnd => exact running_keeps ht hs burst
  | finishingComplete => exact running_keeps ht hs finishing
  | refreshDue => exact running_keeps ht hs due
  | refreshEnd => exact running_keeps ht hs refresh
  | memoryInitComplete => exact running_keeps ht hs initialized
  | modeSetComplete => exact running_keeps ht hs modeSet
  | selfRefreshEntry => exact running_keeps ht hs entering
  | selfRefreshExit => exact running_keeps ht hs leaving
  | tapWrite => exact running_keeps ht hs (atTableHead_keeps hs fun r => fading _ fun h => tapWrite h r)
  | tapClear => exact running_keeps ht hs (atTableHead_keeps hs fun r => fading _ fun h => tapClear h r)
  | copyActive => exact running_keeps ht hs (atTableHead_keeps hs fun r => fading _ fun h => copyActive h r)
  | swap => exact running_keeps ht hs (atTableHead_keeps hs swap)
  | lineMap => exact running_keeps ht hs (atTableHead_keeps hs lineMap)
  | outputMap => exact running_keeps ht hs (atTableHead_keeps hs outputMap)
  | memorySetup => exact running_keeps ht hs (atTableHead_keeps hs memorySetup)
  | tapGain => exact running_keeps ht hs (atLiveHead_keeps hs tapGain)
  | masterGain => exact running_keeps ht hs (atLiveHead_keeps hs masterGain)
  | override => exact running_keeps ht hs (atLiveHead_keeps hs override)
  | guardSet => exact running_keeps ht hs (atLiveHead_keeps hs guardSet)
  | guardRelease => exact running_keeps ht hs (atLiveHead_keeps hs guardRelease)
  | generatorSet => exact running_keeps ht hs (atLiveHead_keeps hs generatorSet)
  | generatorLoad => exact running_keeps ht hs (atLiveHead_keeps hs generatorLoad)
  | rampSet => exact running_keeps ht hs (atLiveHead_keeps hs rampSet)
  | cancelSwap => exact running_keeps ht hs (atLiveHead_keeps hs cancelSwap)
  | stateMute => exact running_keeps ht hs (stateRecord_keeps hs mute malformed)
  | stateRun => exact running_keeps ht hs (stateRecord_keeps hs run malformed)
  | stateQuiesce => exact running_keeps ht hs (stateRecord_keeps hs quiesce malformed)
  | stateWake => exact running_keeps ht hs (stateRecord_keeps hs wake malformed)
  | statusRead => exact running_keeps ht hs (atLiveHead_keeps hs statusRead)
  | restart => exact running_keeps ht hs restart

/-- A property that exec keeps, and that says nothing of the queue, is kept by every step. -/
theorem step_keeps (h : ∀ c s t, P s → exec c s = .next t → P t) (hq : ∀ s q, P s → P { s with pending := q })
    (hs : P s) (ht : step s = .next t) : P t := by
  unfold step at ht
  split at ht
  · exact next_inj ht ▸ hs
  · exact h _ _ _ (hq _ _ hs) ht

end Sys2Proof.Machine
end

