-- ==== Sys2Proof/WellFormed.lean ====
section
/-! DEFINITION. Which commands are well formed: a frame has the layout of section 10.7. -/

namespace Sys2Proof

/-- A frame carries exactly 128 audio slots and 8 control bytes (Table 30). -/
def Frame.wellFormed (f : Frame) : Bool := f.slots.length == 128 && f.control.length == 8

/-- A command is well formed when the frame it carries, if any, is. exec reads a missing slot or control byte of an
ill-formed frame as 0 and disregards an extra one (log 24). -/
def Instr.wellFormed : Instr → Bool
  | .frameArrival f _ => f.wellFormed
  | .powerOn _ _ | .resetPinAssert | .resetPinRelease _ _ | .frameGapExpiry | .burstRequest | .burstServiceEnd
  | .finishingComplete | .refreshDue | .refreshEnd | .memoryInitComplete | .modeSetComplete | .selfRefreshEntry
  | .selfRefreshExit | .tapWrite | .tapClear | .copyActive | .swap | .lineMap | .outputMap | .memorySetup | .tapGain
  | .masterGain | .override | .guardSet | .guardRelease | .generatorSet | .generatorLoad | .rampSet | .cancelSwap
  | .stateMute | .stateRun | .stateQuiesce | .stateWake | .statusRead | .restart => true

end Sys2Proof
end

