-- ==== Sys2Proof/Tests/Slice0.lean ====
section
/-! SUPPORT. Tests of the model: the well-formedness smoke test, one step of each kind of command on a small state, and
for each obligation a state and operands that meet its hypotheses. -/

namespace Sys2Proof.Tests

open Machine Safety

set_option Elab.async false

/-! ### Small states -/

/-- A frame of zeros whose check holds. -/
def goodFrame (index : Byte) (block : Block) : Frame :=
  Frame.fresh ⟨index, 0, block, List.replicate 128 0, List.replicate 8 0, 0⟩

/-- A frame of zeros with its damaged mark set. -/
def markedFrame (index : Byte) (block : Block) : Frame :=
  Frame.fresh ⟨index, 1, block, List.replicate 128 0, List.replicate 8 0, 0⟩

/-- The reset state, LOCKED in block `b`, next position `e`. -/
def lockedAt (e : Nat) (b : Block) : State :=
  { State.reset with link := { Link.reset with state := .locked, expected := e, block := b, gapTimer := .onePeriod } }

/-- A record with a body, and its tag and notify flag. -/
def record (op : Op) (body : List Byte) : Record := ⟨7, op, true, body⟩

/-- The record stands at the head of the table-class queue. -/
def atTable (s : State) (op : Op) (body : List Byte) : State :=
  { s with records := { s.records with table := [record op body] } }

/-- The record stands at the head of the live-class queue. -/
def atLive (s : State) (op : Op) (body : List Byte) : State :=
  { s with records := { s.records with live := [record op body] } }

def inNode (s : State) (n : NodeState) : State := { s with records := { s.records with node := n } }

/-- The memory in a state, with a service and a count of owed refreshes, and its timer running. -/
def inMem (s : State) (m : MemState) (v : Service) (owed : Nat) : State :=
  { s with mem := { s.mem with state := m, service := v, owed := owed, timer := .running .us78 } }

/-- A tap on line 5 of channel 2, at the shortest delay. -/
def tapEntry : TapEntry := ⟨2, 5, 64, 0, 32767, .a, .a, none, 0⟩

def snapshot (due : Nat) : Snapshot :=
  ⟨[0, 0, 0, 0], [some (32767, 32767)], [], List.replicate 16 (32768, 32768), [], [], 0, false, due, 0, [], false⟩

def tapRead (words : Nat) : TapRead := ⟨0, 0, 2, 5, 64, 0, 5, List.replicate words 0⟩

def pass (due served handed : Nat) (monitors : List MonitorRead) (reads : List TapRead) : Pass :=
  ⟨40, 3, snapshot due, ⟨40, [], [], [], handed⟩, served, monitors, reads, 0⟩

/-- A pass under way, in READY. -/
def inPass (x : PassState) (p : Pass) : State :=
  let s := inMem (lockedAt 1 41) .ready .none 0
  { s with tap := { s.tap with state := x, pass := some p } }

def tapBurst : BurstRequest := ⟨.read, 5, 1184, 40, 3, .tap 0 0⟩

def wordsBurst (serial : Nat) : BurstRequest := ⟨.write [1, 2, 3, 4, 5, 6, 7, 8#24], 63, 1304, 40, serial, .writeStage⟩

/-- The burst is in service. -/
def serving (s : State) (q : BurstRequest) : State :=
  { s with mem := { s.mem with service := .burst, queue := [q] } }

/-- What a command leaves. -/
def after (c : Instr) (s : State) : State :=
  match exec c s with
  | .next t => t
  | .fault _ => s
  | .refused _ => s

/-! ### Well-formedness -/

theorem test_wellformed_frame : (Instr.frameArrival (goodFrame 0 5) false).wellFormed = true := by decide +kernel

theorem test_illformed_slots :
    (Instr.frameArrival { goodFrame 0 5 with slots := List.replicate 127 0 } false).wellFormed = false := by decide +kernel

theorem test_illformed_control :
    (Instr.frameArrival { goodFrame 0 5 with control := List.replicate 9 0 } false).wellFormed = false := by decide +kernel

theorem test_no_word_spells_a_command : decodeTableWord 8 0 = none := rfl

theorem test_fetch_word_is_unchanged : State.reset.withFetchWord 16 5 = State.reset := rfl

/-! ### Arithmetic, from the worked examples of chapters 4 and 5 -/

theorem test_delay_modulated :
    (effectiveDelay { tapEntry with delay := 1000, depth := 40 } 600,
      effectiveDelay { tapEntry with delay := 1000, depth := 40 } 601) = (257500, 257502) := by decide +kernel

theorem test_delay_clamped :
    effectiveDelay { tapEntry with delay := 131000, fraction := 100, depth := 255 } 4095 = 33562623 := by decide +kernel

theorem test_interpolation : (interpolate 400001 200000 64, interpolate (-1000) (-1003) 128) = (350000, -1002) := by
  decide +kernel

theorem test_gain_at : (gainAt 16384 8191 15, gainAt 16384 8191 31, gainAt 0 (-1) 0) = (12287, 8191, -1) := by
  decide +kernel

theorem test_scaled_sum : (scaledSum (-16384), scaledSum (-16385), scaledSum 4320490000) = (0, -1, 131851) := by
  decide +kernel

theorem test_channel_value : (channelValue (-3) 16384, channelValue 131851 28672, channelValue 131239 28672)
    = (-1, 115370, 114834) := by decide +kernel

theorem test_attenuation :
    ((GuardAction.attenuate 1).apply (-5), (GuardAction.attenuate 4).apply (-1), (GuardAction.attenuate 4).apply 1,
      (GuardAction.attenuate 2).apply 115370) = (-3, -1, 0, 28842) := by decide +kernel

theorem test_ramp_values : (List.range 5).map (Ramp.value ⟨-1875, 0, 4, 0⟩) = [-1875, -1407, -938, -469, 0] := by
  decide +kernel

theorem test_retarget : Ramp.retarget ⟨0, 9001, 4, 2⟩ 3000 32 8 = ⟨4500, 3000, 8, 0⟩ := by decide +kernel

/-! ### One step of each kind -/

theorem test_power_on_reads_the_straps : (after (.powerOn true false) State.reset).position = 2 := by decide +kernel

theorem test_reset_pin_holds_the_node :
    (after .stateRun { atLive State.reset .state [0] with resetPin := true }).records.node = .muted := by decide +kernel

theorem test_relock : (after (.frameArrival (goodFrame 0 5002) false) State.reset).link.block = 5002 := by decide +kernel

theorem test_relock_notice_rides_in_its_frame :
    ((after (.frameArrival (goodFrame 0 5002) false) State.reset).linkOut.map fun f => f.control) =
      some [2, 0, 0, 0, 4, 0, 0, 0] := by decide +kernel

theorem test_expiry_fills_a_position :
    (after .frameGapExpiry (lockedAt 10 3000)).link.missingFrames = 1 := by decide +kernel

theorem test_write_burst_lands_in_its_row :
    let t := after .burstServiceEnd (serving (inPass .writing (pass 0 0 1 [] [])) (wordsBurst 3))
    (t.mem.bankTable, Memory.read t.dram (4 * ((2 * 4096 + 4032) * 512 + 280))) = ([none, none, some 4032, none], some 1) := by
  decide +kernel

theorem test_service_time_of_a_read :
    (MemController.burstTime { MemController.reset with bankTable := [some 329, none, some 201, none] }
        { tapBurst with position := 17896 },
      MemController.burstTime { MemController.reset with bankTable := [some 329, none, some 328, none] }
        { tapBurst with position := 17896 },
      MemController.burstTime { MemController.reset with bankTable := [none, none, some 328, none] }
        { tapBurst with position := 17920 }) = (17, 11, 14) := by decide +kernel

theorem test_finishing_ends_the_pass :
    (after .finishingComplete (inPass .finishing (pass 0 256 256 [] []))).tap.state = .idle := by decide +kernel

theorem test_eighth_refresh_goes_first :
    let t := after .refreshDue { inMem State.reset .ready .none 7 with
      mem := { (inMem State.reset .ready .none 7).mem with queue := [tapBurst] } }
    (t.mem.owed, t.mem.service) = (8, .refresh) := by decide +kernel

theorem test_refresh_is_paid : (after .refreshEnd (inMem State.reset .ready .refresh 3)).mem.owed = 2 := by decide +kernel

theorem test_initialization_starts_the_timer :
    (after .memoryInitComplete (inMem State.reset .initializing .initialization 0)).mem.state = .ready := by decide +kernel

theorem test_self_refresh_entry_holds :
    (after .selfRefreshEntry (inMem State.reset .entering .selfRefreshEntry 0)).mem.state = .held := by decide +kernel

theorem test_tap_write_of_two_entries :
    let e : List Byte := [2, 5, 0, 0, 64, 0, 0x7F, 0xFF, 0, 0, 0, 0, 0, 0, 0, 0]
    let t := after .tapWrite (atTable State.reset .tapWrite ([0x03, 0xFF, 0, 2] ++ e ++ e))
    (t.store.bank1.getD 1023 none, t.store.pointerLocked, t.records.notices) =
      (some tapEntry, true, [.completion 7 0x10 .clipped ⟨1, 0, 1, 0, 1⟩ 0]) := by decide +kernel

theorem test_swap_waits_as_pending :
    (after .swap (atTable State.reset .swap [1, 0, 0, 0x23, 0x28, 0, 2])).store.swap =
      some ⟨.atBlock 9000, .exponent 2, false, 7, true⟩ := by decide +kernel

theorem test_line_map :
    (after .lineMap (atTable State.reset .lineMap [12, 1, 40])).lines.map.getD 12 .none = .ring 40 := by decide +kernel

theorem test_output_map :
    (after .outputMap (atTable State.reset .outputMap [3, 9, 1])).store.channel 3 = ⟨some 9, some 1, 32768, .follow, 0⟩ := by
  decide +kernel

theorem test_memory_setup_initializes :
    let t := after .memorySetup (atTable State.reset .memorySetup [1, 1, 2])
    (t.mem.state, t.mem.refreshCount, t.mem.periods) = (.initializing, 2, 3 + 20 + 2 + 4) := by decide +kernel

theorem test_master_gain_waits_for_run :
    let t := after .masterGain (atLive State.reset .masterGain [5, 0x9C, 0x40])
    ((t.store.channel 5).setGain, t.ramps.masters.getD 5 Ramp.idleAtZero) = (40000, Ramp.idleAtZero) := by decide +kernel

theorem test_override_silences_at_the_boundary :
    (after .override (atLive State.reset .override [1, 0, 1, 9])).out.silencePending.getD 9 none = some true := by
  decide +kernel

theorem test_guard_set :
    ((after .guardSet (atLive State.reset .guardSet [1, 0, 1, 1, 0, 0x3D, 0x09, 0x00, 3])).out.group 1).threshold =
      4000000 := by decide +kernel

theorem test_generator_set :
    (after .generatorSet (atLive State.reset .generatorSet [2, 3, 0, 3, 0, 2, 1, 1, 2])).gens.getD 2 Generator.reset =
      ⟨.triangle, 3, 3, 0, .up, 2, .down, true, 2, 0⟩ := by decide +kernel

theorem test_triangle_turns_and_counts :
    (Generator.stepped ⟨.triangle, 3, 3, 3, .down, 2, .down, true, 2, 0⟩) =
      ⟨.triangle, 3, 3, 2, .down, 2, .down, true, 2, 1⟩ := by decide +kernel

theorem test_generator_load_clamps :
    let s := { State.reset with gens := List.replicate 4 { Generator.reset with mode := .single, period := 2 } }
    (after .generatorLoad (atLive s .generatorLoad [3, 0, 7, 1])).gens.getD 3 Generator.reset =
      { Generator.reset with mode := .single, period := 2, counter := 2 } := by decide +kernel

theorem test_ramp_set : (after .rampSet (atLive State.reset .rampSet [255, 9])).ramps.unitB = 6 := by decide +kernel

theorem test_mute_with_idle_ramps_drains :
    (after .stateMute (atLive (inNode State.reset .run) .state [1])).records.drain = some 0 := by decide +kernel

theorem test_run_rises_to_the_set_gain :
    (after .stateRun (atLive State.reset .state [0])).ramps.masters.getD 9 Ramp.idleAtZero = ⟨0, 32768, 8, 0⟩ := by
  decide +kernel

theorem test_quiesce_enters_self_refresh :
    (after .stateQuiesce (atLive (inMem State.reset .ready .none 0) .state [2])).mem.service = .selfRefreshEntry := by
  decide +kernel

theorem test_wake_leaves_self_refresh :
    (after .stateWake (atLive (inNode (inMem State.reset .held .none 0) .quiescent) .state [3])).mem.periods =
      26 + 3 + 2 + 4 := by decide +kernel

theorem test_status_has_237_bytes : State.reset.statusBody.length = 237 := by decide +kernel

/-! ### The hypotheses of the statements are met -/

/-- The reset state with the reset pin asserted. -/
def heldInReset : State := { State.reset with resetPin := true }

def lost : State := { State.reset with link := { Link.reset with state := .lost } }

/-- LOCKED with the bad-run count `n`. -/
def badRunOf (n e : Nat) : State := { lockedAt e 40 with link := { (lockedAt e 40).link with badRun := n } }

/-- LOCKED, next position `e`, after a lost frame 0: the rows of the block before stand. -/
def afterLostZero (e : Nat) : State :=
  let s := lockedAt e 40
  { s with
    link := { s.link with lostZero := true, filling := List.replicate 32 [] }
    out := { s.out with recording := List.replicate 32 [5#24] } }

/-- READY, LOCKED at the position of index 0, in a node state. -/
def beforeBoundary (n : NodeState) : State := inNode (inMem (lockedAt 0 40) .ready .none 0) n

/-- A pass in flight at a boundary. -/
def passAtBoundary (x : PassState) : State :=
  { beforeBoundary .run with tap := { TapEngine.reset with state := x, pass := some (pass 0 3 200 [] []) } }

/-- Channel 3 has slot 9. -/
def mapped : State :=
  { lockedAt 1 40 with
    store := { Store.reset with
      channels := (List.replicate 16 Channel.reset).set 3 { Channel.reset with slot := some 9 } }
    out := { Output.reset with copy := (List.replicate 16 ⟨none, none⟩).set 3 ⟨some 9, none⟩ } }

/-- One tap of channel 2 in the ACTIVE bank, with its ramp. -/
def oneTap (i : Nat) : State :=
  { State.reset with
    store := { Store.reset with bank0 := Bank.vacant.set i (some tapEntry) }
    ramps := { Ramps.reset with taps0 := noRamps.set i (some ⟨0, 32767, 8, 0⟩) } }

theorem test_meets_AtTable (s : State) (op : Op) (b : List Byte) (h : s.resetPin = false) :
    AtTable (atTable s op b) op (record op b) := ⟨h, rfl, rfl⟩

theorem test_meets_AtLive (s : State) (op : Op) (b : List Byte) (h : s.resetPin = false) :
    AtLive (atLive s op b) op (record op b) := ⟨h, rfl, rfl⟩

theorem test_meets_StepRunsTheFrontCommand :
    ({ State.reset with pending := [.refreshDue, .refreshEnd] } : State).pending = .refreshDue :: [.refreshEnd] ∧
      State.reset.pending = [] := ⟨rfl, rfl⟩

theorem test_meets_EveryCommandAnswers :
    heldInReset.resetPin = true ∧ (∀ p q, Instr.refreshDue ≠ .powerOn p q) ∧
      ∀ p q, Instr.refreshDue ≠ .resetPinRelease p q := ⟨rfl, nofun, nofun⟩

theorem test_meets_PowerOnAndReset : State.reset.resetPin = false ∧ heldInReset.resetPin = true := ⟨rfl, rfl⟩

theorem test_meets_Seeking :
    State.reset.link.state ≠ .locked ∧ lost.link.state ≠ .locked ∧
      ¬((goodFrame 1 5).good = true ∧ (goodFrame 1 5).index = 0) ∧
      ¬((markedFrame 0 5).good = true ∧ (markedFrame 0 5).index = 0) := by decide +kernel

theorem test_meets_Relock :
    lost.link.state ≠ .locked ∧ (goodFrame 0 5).good = true ∧ (goodFrame 0 5).index = 0 ∧ lost.records.notices = [] ∧
      (∀ k : Fin 4, (lost.out.group k.val).bEnable = false) ∧ (goodFrame 0 5).controlRow.getD 0 0 = 0 := by decide +kernel

/-- A boundary, a boundary where the number wraps, a renumber to the same number. -/
theorem test_meets_AtBoundary :
    AtBoundary (beforeBoundary .run) (goodFrame 0 41) ∧ (goodFrame 0 41).block = (beforeBoundary .run).link.block + 1 ∧
      AtBoundary (lockedAt 0 0xFFFFFFFF) (goodFrame 0 0) ∧ (goodFrame 0 0).block = (lockedAt 0 0xFFFFFFFF).link.block + 1 ∧
      AtBoundary (lockedAt 0 40) (goodFrame 0 40) ∧ (goodFrame 0 40).block ≠ (lockedAt 0 40).link.block + 1 := by
  unfold AtBoundary; decide +kernel

theorem test_meets_BeginsAPass :
    (beforeBoundary .muted).records.node ≠ .quiescent ∧ (beforeBoundary .muted).mem.state = .ready := by decide +kernel

theorem test_meets_BeginsNoPass :
    PassMatchesState (beforeBoundary .quiescent) ∧ (beforeBoundary .quiescent).records.node = .quiescent ∧
      PassMatchesState (lockedAt 0 40) ∧ (lockedAt 0 40).mem.state ≠ .ready ∧ PassMatchesState (passAtBoundary .tapping) := by
  unfold PassMatchesState; decide +kernel

theorem test_meets_CutsTheRunningPass :
    AtBoundary (passAtBoundary .writing) (goodFrame 0 41) ∧ (goodFrame 0 41).block = (passAtBoundary .writing).link.block + 1 ∧
      (passAtBoundary .writing).tap.pass = some (pass 0 3 200 [] []) ∧ (passAtBoundary .writing).tap.state = .writing ∧
      AtBoundary (passAtBoundary .tapping) (goodFrame 0 41) ∧ (passAtBoundary .tapping).tap.state = .tapping ∧
      (passAtBoundary .tapping).tap.cutRun = 0 ∧
      (AtBoundary (passAtBoundary .finishing) (goodFrame 0 41) ∧ (passAtBoundary .finishing).tap.state = .finishing) ∧
      (beforeBoundary .run).tap.pass = none := by
  unfold AtBoundary; decide +kernel

/-- The notices of a boundary that takes a swap and cuts a pass. -/
theorem test_boundary_notices :
    let s := { passAtBoundary .tapping with
      store := { Store.reset with swap := some ⟨.next, .exponent 1, false, 7, true⟩ } }
    ((boundaryNotices s (goodFrame 0 41) false).length,
      (after (.frameArrival (goodFrame 0 41) false) s).records.notices.length) = (3, 2) := by decide +kernel

/-- A pass cut in WRITING goes on handing over from where it stood; one cut with no burst in the queue has ended. -/
theorem test_cut_pass_waits_for_its_bursts :
    ((after (.frameArrival (goodFrame 0 41) false) (passAtBoundary .writing)).tap.ending.map
        fun e => (e.serial, e.write.map WriteStage.handed)) = [(3, some 200)] ∧
      (after (.frameArrival (goodFrame 0 41) false) (passAtBoundary .tapping)).tap.ending = [] := by decide +kernel

theorem test_meets_SlotsDistinct : SlotsDistinct mapped := by
  have h : ∀ c < 16, (mapped.store.channel c).slot = if c = 3 then some 9 else none := by decide +kernel
  have k : ∀ c < 16, (mapped.out.copy.getD c ⟨none, none⟩).slot = if c = 3 then some 9 else none := by decide +kernel
  refine ⟨rfl, ?_, ?_⟩
  · intro c hc c' hc' n x y
    rw [h c hc] at x; rw [h c' hc'] at y
    split at x <;> split at y <;> simp_all
  · intro c hc c' hc' n x y
    rw [k c hc] at x; rw [k c' hc'] at y
    split at x <;> split at y <;> simp_all

theorem test_meets_GoodPosition :
    GoodInBlock mapped (goodFrame 1 40) ∧ GoodInBlock (lockedAt 31 40) (goodFrame 31 40) ∧
      (GoodInBlock (afterLostZero 1) (goodFrame 1 40) ∧ (afterLostZero 1).link.lostZero = true) ∧
      GoodInBlock (afterLostZero 31) (goodFrame 31 40) ∧ mapped.out.copy.getD 3 ⟨none, none⟩ = ⟨some 9, none⟩ := by
  unfold GoodInBlock; decide +kernel

theorem test_lost_frame_zero_records_zeros :
    (after (.frameArrival (goodFrame 1 40) false) (afterLostZero 1)).out.recording.getD 1 [] = List.replicate 16 0 := by
  decide +kernel

theorem test_meets_Damaged :
    Damaged (badRunOf 0 7).link (markedFrame 7 40) ∧ (badRunOf 0 7).link.badRun < 2 ∧
      Damaged (badRunOf 1 7).link (goodFrame 8 40) ∧ (badRunOf 1 7).link.badRun < 2 ∧
      Damaged (badRunOf 1 7).link (goodFrame 7 41) ∧ Damaged (badRunOf 1 0).link (goodFrame 1 40) ∧
      (badRunOf 2 7).link.badRun = 2 ∧ Damaged (badRunOf 2 31).link (markedFrame 31 40) ∧
      (Damaged (afterLostZero 31).link (markedFrame 31 40) ∧ (afterLostZero 31).link.lostZero = true ∧
        (afterLostZero 31).link.badRun < 2) := by
  unfold Damaged; decide +kernel

theorem test_meets_GapExpiry :
    (badRunOf 1 7).link.state = .locked ∧ (badRunOf 1 7).link.badRun < 2 ∧ (badRunOf 2 0).link.badRun = 2 ∧
      lost.link.state ≠ .locked := by decide +kernel

/-- A damaged or missing position of index 0 writes the held values at position 0 of the full filling input block. -/
theorem test_lost_frame_zero_repeats_the_held_values :
    let l := (afterLostZero 0).link
    let s := { afterLostZero 0 with link := { l with lostZero := false, held := [7#24] } }
    let t := after .frameGapExpiry s
    let u := after (.frameArrival (markedFrame 0 41) false) s
    (t.link.filling, u.link.filling) = ([7#24] :: List.replicate 31 [], [7#24] :: List.replicate 31 []) ∧
      (t.link.lostZero, u.link.lostZero) = (true, true) ∧ Damaged s.link (markedFrame 0 41) ∧ s.link.badRun < 2 := by
  unfold Damaged; decide +kernel

/-- A loss takes a pass in flight with its cut run, and one with no pass leaves the tap engine. -/
theorem test_loss_clears_the_cut_run :
    let s := { badRunOf 2 7 with
      tap := { TapEngine.reset with state := .tapping, pass := some (pass 0 256 256 [] []), cutRun := 5 } }
    let t := after .frameGapExpiry s
    (s.tap.pass.isSome, t.tap.state, t.tap.cutRun, t.link.state) = (true, .idle, 0, .lost) ∧
      (badRunOf 2 7).tap.pass = none := by decide +kernel

/-- The cell being received begins at position 0, and a missing position makes it bad. -/
theorem test_cell_grows :
    let t := after (.frameArrival (goodFrame 0 41) false) (beforeBoundary .run)
    let u := after .frameGapExpiry (after (.frameArrival (goodFrame 1 41) false) t)
    (t.link.cellRx, u.link.cellRx) = (some ⟨List.replicate 8 0, false⟩, some ⟨List.replicate 24 0, true⟩) := by
  decide +kernel

/-- A relock whose cell is not IDLE queues its notice. -/
theorem test_meets_RelockNotice :
    let f := Frame.fresh { goodFrame 0 5 with control := [1] }
    f.good = true ∧ f.index = 0 ∧ f.controlRow.getD 0 0 ≠ 0 ∧ lost.link.state ≠ .locked ∧
      (after (.frameArrival f false) lost).records.notices = [.link false 5 0 5] := by decide +kernel

/-- A cell of zeros holds its check; a bad one is counted. -/
theorem test_meets_CompleteCell :
    ¬Damaged (lockedAt 31 40).link (goodFrame 31 40) ∧
      cellCheckHolds ((⟨List.replicate 248 0, false⟩ : CellRx).bytes ++ (goodFrame 31 40).controlRow) = true ∧
      cellCheckHolds ((⟨List.replicate 248 1, false⟩ : CellRx).bytes ++ (goodFrame 31 40).controlRow) = false ∧
      (Damaged (badRunOf 1 31).link (markedFrame 31 40) ∧ (badRunOf 1 31).link.badRun < 2) := by
  unfold Damaged; decide +kernel

/-- A position 31 that is damaged, or missing, damages the cell. -/
theorem test_position_31_damages_the_cell :
    let s := { badRunOf 1 31 with link := { (badRunOf 1 31).link with cellRx := some ⟨List.replicate 248 0, false⟩ } }
    ((after (.frameArrival (markedFrame 31 40) false) s).link.damagedCells, (after .frameGapExpiry s).link.damagedCells,
      (after .frameGapExpiry s).link.cellRx) = (1, 1, none) := by decide +kernel

/-- A TAP-CLEAR of 8 bytes in one fragment, its first 4 bytes, and the longest record. -/
theorem test_meets_Fragments :
    (let g : Fragment := ⟨7, 0, 8, true, [0x11, 0, 0, 8, 0, 0, 0, 4] ++ List.replicate 238 0⟩
     g.index = 0 ∧ 4 ≤ g.count ∧ g.count ≤ 246 ∧ g.payload.length = 246 ∧ opOf (g.payload.getD 0 0) = some .tapClear ∧
      g.count = field2 g.payload 2) ∧
    (let g : Fragment := ⟨7, 0, 4, false, [0x11, 0, 0, 8] ++ List.replicate 242 0⟩
     4 ≤ g.count ∧ g.payload.length = 246 ∧ g.count < field2 g.payload 2 ∧ g.last = false) ∧
    (let g : Fragment := ⟨7, 0, 246, false, [0x10, 0, 0x40, 0x10] ++ List.replicate 242 0⟩
     opOf (g.payload.getD 0 0) = some .tapWrite ∧ field2 g.payload 2 = 16400 ∧ g.payload.length = 246) ∧
    (let g : Fragment := ⟨7, 1, 4, true, List.replicate 246 0⟩
     let a : Assembly := ⟨7, .tapClear, true, 8, [0x11, 0, 0, 8], 1⟩
     let s := State.reset.withAssembly (some a)
     s.records.assembly = some a ∧ 0 < g.index ∧ 0 < g.count ∧ g.count ≤ 246 ∧ g.payload.length = 246 ∧ g.tag = a.tag ∧
      g.index = a.next ∧ a.bytes.length + g.count = a.total) ∧
    State.reset.records.assembly = none := by decide +kernel

/-- A header of three bytes, one that names no operation, and total lengths of 3 and 16,401. -/
theorem test_meets_FragmentRefused :
    (∀ g ∈ [(⟨7, 0, 3, true, [0x11, 0, 0] ++ List.replicate 243 0⟩ : Fragment),
        ⟨7, 0, 4, true, [0xEE, 0, 0, 4] ++ List.replicate 242 0⟩, ⟨7, 0, 246, false, [0x11, 0, 0, 3] ++ List.replicate 242 0⟩,
        ⟨7, 0, 246, false, [0x11, 0, 0x40, 0x11] ++ List.replicate 242 0⟩],
      g.index = 0 ∧ 0 < g.count ∧ g.count ≤ 246 ∧ g.payload.length = 246 ∧
        (g.count < 4 ∨ opOf (g.payload.getD 0 0) = none ∨ field2 g.payload 2 < 4 ∨ 16400 < field2 g.payload 2)) := by
  decide +kernel

/-- The first and the last burst of a write stage. -/
theorem test_meets_WriteRequest :
    (let p := pass 0 0 0 [] []
     let s := inPass .writing p
     s.resetPin = false ∧ s.mem.accepts = true ∧ (∀ e ∈ s.tap.ending, e.writesLeft = false) ∧ s.tap.pass = some p ∧
      s.tap.state = .writing ∧ p.write.handed < 256) ∧
    (let p := pass 0 0 255 [] []
     let s := inPass .writing p
     s.mem.accepts = true ∧ s.tap.pass = some p ∧ p.write.handed < 256) ∧
    (let w : WriteStage := ⟨39, [], [], [], 255⟩
     let s := { inPass .writing (pass 0 0 0 [] []) with
       tap := { TapEngine.reset with ending := [(⟨38, 1, none⟩ : EndingPass)] ++ (⟨39, 2, some w⟩ : EndingPass) :: [] } }
     s.mem.accepts = true ∧ (∀ e ∈ [(⟨38, 1, none⟩ : EndingPass)], e.writesLeft = false) ∧ w.handed < 256) ∧
    ((State.reset.mem.state ≠ .ready ∧ State.reset.mem.state ≠ .draining ∧ State.reset.mem.state ≠ .entering) ∧
      16 ≤ (List.replicate 16 tapBurst).length ∧ State.reset.tap.pass = none) := by decide +kernel

/-- A monitor read at its last burst, and a tap read at its last burst. -/
theorem test_meets_ReadRequest :
    (let done : MonitorRead := ⟨1, 5, 4, []⟩
     let m : MonitorRead := ⟨2, 5, 3, []⟩
     let p := pass 1 256 256 ([done] ++ m :: []) []
     let s := inPass .tapping p
     s.mem.accepts = true ∧ (∀ e ∈ s.tap.ending, e.writesLeft = false) ∧ s.tap.pass = some p ∧ s.tap.state = .tapping ∧
      (∀ x ∈ [done], 4 ≤ x.handed) ∧ m.handed < 4) ∧
    (let done : MonitorRead := ⟨1, 5, 4, []⟩
     let r := { tapRead 0 with handed := 4 }
     let p := pass 1 256 256 [done] ([tapRead 0] ++ r :: [])
     (∀ x ∈ p.monitors, 4 ≤ x.handed) ∧ (∀ x ∈ [tapRead 0], 5 ≤ x.handed) ∧ r.handed < 5) := by decide +kernel

/-- The next tap in the ACTIVE bank, at its last index, and in the OUTGOING bank. -/
theorem test_meets_NextTap :
    (let s := { oneTap 1023 with tap := { TapEngine.reset with cursor := ⟨0, 1023⟩ } }
     IsNextTap s (pass 1 256 256 [] []) 0 1023 tapEntry) ∧
    (let s := { State.reset with
       store := { Store.reset with fade := true, bank1 := Bank.vacant.set 0 (some tapEntry) } }
     let p := { pass 1 256 256 [] [] with snapshot := { snapshot 1 with fade := true } }
     IsNextTap s p 1 0 tapEntry) := by
  have v : ∀ j, (Bank.vacant.getD j none : Option TapEntry) = none := by
    intro j; rw [Bank.vacant, List.getD_eq_getElem?_getD, List.getElem?_replicate]; split <;> rfl
  refine ⟨⟨by decide +kernel, .inl ⟨rfl, by decide +kernel, fun j h k => ?_⟩⟩,
    ⟨by decide +kernel, .inr ⟨rfl, rfl, rfl, fun j _ => v j, fun j h => absurd h (Nat.not_lt_zero j)⟩⟩⟩
  exact absurd k (by exact Nat.not_lt.mpr h)

theorem test_meets_Serving :
    Serving (serving (inPass .writing (pass 0 255 256 [] [])) (wordsBurst 3)) (wordsBurst 3) ∧
      (wordsBurst 3).kind = .write [1, 2, 3, 4, 5, 6, 7, 8#24] ∧
      (inPass .writing (pass 0 255 256 [] [])).tap.state = .writing ∧
      (inPass .writing (pass 0 255 256 [] [])).tap.pass = some (pass 0 255 256 [] []) ∧
      (pass 0 255 256 [] []).serial = (wordsBurst 3).serial ∧ (pass 0 255 256 [] []).served = 255 ∧
      (pass 0 254 256 [] []).served ≠ 255 := by unfold Serving; decide +kernel

theorem test_meets_FifthBurst :
    (let p := pass 1 256 256 [] [tapRead 32]
     let s := serving (inPass .tapping p) tapBurst
     Serving s tapBurst ∧ tapBurst.kind = .read ∧ tapBurst.part = .tap (tapRead 32).bank (tapRead 32).index ∧
      s.tap.state = .tapping ∧ s.tap.pass = some p ∧ p.serial = tapBurst.serial ∧ p.reads = tapRead 32 :: [] ∧
      s.tap.acc.length = 16 ∧ (tapRead 32).words.length = 32) ∧
    (tapRead 24).words.length < 32 ∧
    (let s := serving (inPass .writing (pass 1 0 0 [] [])) tapBurst
     Serving s tapBurst ∧ s.tap.state ≠ .tapping) ∧
    (let q : BurstRequest := ⟨.read, 5, 1304, 40, 3, .monitor 15⟩
     let p := pass 0 256 256 [⟨15, 5, 4, List.replicate 24 0⟩] []
     let s := serving (inPass .tapping p) q
     Serving s q ∧ q.kind = .read ∧ q.part = .monitor 15 ∧ s.tap.state = .tapping ∧ s.tap.pass = some p ∧
      p.serial = q.serial) := by unfold Serving; decide +kernel

theorem test_meets_Finishing :
    (let p := pass 0 256 256 [] []
     let s := inPass .finishing p
     s.resetPin = false ∧ s.tap.state = .finishing ∧ s.tap.pass = some p) ∧
    State.reset.tap.state ≠ .finishing ∧ GuardGroup.reset.aEnable = false ∧
    ({ GuardGroup.reset with aEnable := true, aMode := .block } : GuardGroup).aMode = .block ∧
    GuardGroup.reset.aMode = .latch := by decide +kernel

theorem test_meets_Arithmetic :
    (255 ≤ 255 ∧ (31 : Nat) < 32) ∧ ((-8388608 : Int) ≤ -8388608 ∧ (-8388608 : Int) ≤ 8388607) ∧
      ((-32768 : Int) ≤ -32768 ∧ (-32768 : Int) ≤ 32767) ∧ (pass 0 0 0 [] []).snapshot.monitors.getD 15 none = none ∧
      (Output.reset.silence.getD 15 false = false ∧ ({ Output.reset with silence := [true] } : Output).silence.getD 0 false = true ∧
        (Output.reset.copy.getD 3 ⟨none, none⟩).group = none ∧
        (({ Output.reset with copy := [⟨none, some 3⟩] } : Output).copy.getD 0 ⟨none, none⟩).group = some 3) := by
  decide +kernel

/-- A LINE-MONITOR channel after another, with all its words and with 24 of them. -/
theorem test_meets_MonitorValue :
    ∀ n ∈ [24, 32],
      let m : MonitorRead := ⟨15, 63, 4, List.replicate n 0⟩
      let o : MonitorRead := ⟨1, 5, 4, []⟩
      let p := { pass 0 256 256 ([o] ++ m :: []) [] with
        snapshot := { snapshot 0 with monitors := List.replicate 15 none ++ [some 63] } }
      p.snapshot.monitors.getD (15 : Fin 16).val none = some 63 ∧ p.monitors = [o] ++ m :: [] ∧
        (∀ x ∈ [o], x.channel ≠ 15) ∧ m.channel = 15 := by decide +kernel

theorem test_meets_Ramps :
    0 < (⟨0, 9001, 4, 4⟩ : Ramp).len ∧ 4 ≤ (⟨0, 9001, 4, 4⟩ : Ramp).len ∧ (⟨0, 9001, 4, 2⟩ : Ramp).current < 9001 ∧
      3000 < (⟨0, 9001, 4, 2⟩ : Ramp).current ∧ 4500 = (⟨0, 9001, 4, 2⟩ : Ramp).current := by decide +kernel

theorem test_meets_Refresh :
    (inMem State.reset .ready .none 7).mem.timer = .running .us78 ∧ (inMem State.reset .ready .none 7).mem.owed < 8 ∧
      (inMem State.reset .ready .none 7).mem.state = .ready ∧ (inMem State.reset .ready .none 7).mem.service = .none ∧
      8 ≤ (inMem State.reset .ready .none 8).mem.owed ∧ (∀ i, State.reset.mem.timer ≠ .running i) ∧
      (inMem State.reset .ready .refresh 8).mem.service = .refresh ∧ State.reset.mem.service ≠ .refresh ∧
      (inMem State.reset .setting .refresh 2).mem.state = .setting := by
  refine ⟨rfl, by decide, rfl, rfl, by decide, nofun, rfl, by decide, rfl⟩

/-- SETTING serves the two refreshes owed when it began; one that falls due meanwhile waits for READY. -/
theorem test_setting_leaves_later_refreshes :
    let s := inMem State.reset .setting .refresh 2
    let s := { s with mem := { s.mem with settingRefreshes := 2 } }
    let t := after .refreshEnd (after .refreshEnd (after .refreshDue s))
    (t.mem.service, t.mem.owed, (after .modeSetComplete t).mem.service) = (.modeSet, 1, .refresh) := by decide +kernel

/-- DRAINING waits for the pass in FINISHING and then serves the refreshes owed. -/
theorem test_draining_ends_with_the_last_pass :
    let s := inPass .finishing (pass 0 256 256 [] [])
    let s := { s with mem := { s.mem with state := .draining, service := .none, owed := 2 } }
    let t := after .finishingComplete s
    (¬NoPass s ∧ NoPass t) ∧ (t.mem.state, t.mem.settingRefreshes, t.mem.service, t.mem.periods) =
      (MemState.setting, 2, Service.refresh, 13) := by unfold NoPass; decide +kernel

/-- ENTERING begins the entry at its last refresh's end; with a pass in FINISHING it waits. -/
theorem test_entry_waits_for_pass_and_refresh :
    (let t := after .refreshEnd (inMem State.reset .entering .refresh 1)
     (t.mem.service, t.mem.periods) = (.selfRefreshEntry, 5)) ∧
    (let s := inPass .finishing (pass 0 256 256 [] [])
     let t := after .refreshEnd { s with mem := { s.mem with state := .entering, service := .refresh, owed := 1 } }
     t.mem.service = .none) ∧
    (let t := after .refreshEnd (inMem State.reset .entering .refresh 2)
     (t.mem.service, t.mem.periods) = (.refresh, 13)) := by decide +kernel

/-- The next burst finds its row open, another row, or its bank CLOSED; with eight refreshes owed one goes first. -/
theorem test_next_service_after_a_burst :
    let s := inPass .writing (pass 0 0 8 [] [])
    let serve := fun (q : BurstRequest) (owed : Nat) =>
      let m := (after .burstServiceEnd { s with mem := { s.mem with
        service := .burst, queue := [wordsBurst 3, q], owed := owed } }).mem
      (m.service, m.periods)
    (serve (wordsBurst 3) 7, serve { wordsBurst 3 with line := 62 } 7,
      serve { tapBurst with position := 0 } 7, serve (wordsBurst 3) 8) =
      ((.burst, 8), (.burst, 6 + 8), (.burst, 3 + (8 + 3)), (.refresh, 13)) := by decide +kernel

theorem test_meets_MemorySequences :
    (inMem State.reset .initializing .initialization 0).mem.state = .initializing ∧
      ((inMem State.reset .setting .modeSet 0).mem.state = .setting ∧ (inMem State.reset .setting .modeSet 0).mem.service = .modeSet) ∧
      (inMem State.reset .leaving .leaving 0).mem.state = .leaving ∧
      ((inMem State.reset .entering .selfRefreshEntry 0).mem.state = .entering ∧
        (inMem State.reset .entering .selfRefreshEntry 0).mem.service = .selfRefreshEntry) ∧
      State.reset.mem.state ≠ .initializing ∧ State.reset.mem.state ≠ .setting ∧ State.reset.mem.state ≠ .entering ∧
      State.reset.mem.state ≠ .leaving := by decide +kernel

/-- Codes at the ends of their ranges: accepted, clamped, refused. -/
theorem test_meets_MemorySetup :
    ([1, 1, 2] : List Byte).length = 3 ∧ byteAt [1, 1, 2] 1 ≤ 1 ∧ byteAt [1, 1, 2] 2 = 2 ∧ byteAt [16, 0, 3] 2 = 3 ∧
      1 < byteAt [8, 2, 3] 1 ∧ (byteAt [8, 0, 4] 2 ≠ 2 ∧ byteAt [8, 0, 4] 2 ≠ 3) ∧ State.reset.mem.state = .uninit ∧
      (inMem State.reset .ready .none 0).mem.state = .ready ∧ (inMem State.reset .held .none 0).mem.state = .held ∧
      (inMem State.reset .draining .none 0).mem.state = .draining := by decide +kernel

/-- A vacant channel byte, another node's channel, lines 64 and 63. -/
theorem test_meets_TapEntry :
    byteAt [255] 0 = 255 ∧ byteAt [16] 0 / 16 ≠ (0 : Fin 4).val ∧ (byteAt [15, 64] 0 / 16 = (0 : Fin 4).val ∧ 64 ≤ byteAt [15, 64] 1) ∧
      (byteAt [15, 63] 0 ≠ 255 ∧ byteAt [15, 63] 1 < 64) ∧ byteAt [254, 63] 0 / 16 ≠ (3 : Fin 4).val + 4 := by decide +kernel

/-- Two entries of which the second is discarded; no entry; an empty SHADOW bank. -/
theorem test_meets_TapWrite :
    (let b : List Byte := [0x03, 0xFF, 0, 2] ++ List.replicate 32 0
     4 ≤ b.length ∧ b.length = 4 + 16 * field2 b 2 ∧ storedCount (field2 b 0) (field2 b 2) = 1) ∧
    (let b : List Byte := [4, 0, 0, 0]
     4 ≤ b.length ∧ b.length = 4 + 16 * field2 b 2 ∧ storedCount (field2 b 0) (field2 b 2) = 0) ∧
    State.reset.store.fade = false ∧ (State.reset.store.bank (otherBank State.reset.store.active)).length = 1024 ∧
    ({ Store.reset with fade := true } : Store).fade = true := by decide +kernel

theorem test_meets_TapClear :
    ([0x03, 0xFF, 0, 2] : List Byte).length = 4 ∧ field2 [0x03, 0xFF, 0, 2] 0 = 1023 ∧ field2 [0x04, 0, 0, 0] 0 = 1024 := by
  decide +kernel

theorem test_meets_Swap :
    State.reset.store.swap = none ∧ ([1, 0, 0, 0x23, 0x28, 0, 6] : List Byte).length = 7 ∧
      triggerOf [1, 0, 0, 0x23, 0x28, 0, 6] = some (.atBlock 9000) ∧ fadeOf 6 = some (.exponent 6) ∧
      byteAt [2, 0, 0, 0, 0, 3, 255] 5 = (3 : Fin 4).val ∧
      (byteAt [2, 0, 0, 0, 0, 4, 0] 0 = 2 ∧ 4 ≤ byteAt [2, 0, 0, 0, 0, 4, 0] 5) ∧ 2 < byteAt [3] 0 ∧
      (6 < byteAt [7] 0 ∧ byteAt [7] 0 ≠ 255) ∧ (6 < byteAt [254] 0 ∧ byteAt [254] 0 ≠ 255) := by decide +kernel

def pendingSwap (t : Trigger) (late : Bool) : PendingSwap := ⟨t, .exponent 1, late, 7, true⟩

/-- A swap is pending in the state. -/
def withSwap (s : State) (w : PendingSwap) : State := { s with store := { s.store with swap := some w } }

/-- V0 reaches its compare value at its next step. -/
def comparing : State :=
  { beforeBoundary .run with gens := List.replicate 4 { Generator.reset with mode := .ramp, compareValue := 1 } }

/-- A block exactly 2^31 away, neither before nor after: late when it becomes pending, waiting at a boundary. -/
theorem test_swap_half_the_numbers_away :
    (lockedAt 0 0).lateNow (.atBlock 0x80000000) = true ∧
      PendingSwap.due ⟨.atBlock 0x80000000, .cut, false, 7, true⟩ [] 0 = none := by decide +kernel

theorem test_meets_PendingSwapDue :
    ComesDue State.reset (pendingSwap .next false) 41 ∧ ComesDue State.reset (pendingSwap (.atBlock 41) false) 41 ∧
      ComesDue State.reset (pendingSwap (.atBlock 40) false) 41 ∧ ComesDue State.reset (pendingSwap (.atBlock 99) true) 41 ∧
      ComesDue comparing (pendingSwap (.onCompare 0) false) 41 ∧ AtBoundary comparing (goodFrame 0 41) ∧
      (withSwap comparing (pendingSwap .next false)).store.swap = some (pendingSwap .next false) := by
  refine ⟨trivial, .inr (.inl rfl), .inr (.inr (by decide)), .inl rfl, ⟨by decide, by decide +kernel⟩, ?_, rfl⟩
  unfold AtBoundary; decide +kernel

theorem test_meets_PendingSwapNotDue :
    ¬ComesDue State.reset (pendingSwap (.atBlock 42) false) 41 ∧
      ¬ComesDue State.reset (pendingSwap (.onCompare 0) false) 41 ∧ (∀ w, State.reset.store.swap = some w → False) ∧
      ({ Store.reset with fade := true, endReady := true } : Store).endReady = true := by
  refine ⟨?_, ?_, nofun, rfl⟩
  · rintro (h | h | h)
    · exact absurd h (by decide)
    · exact absurd h (by decide)
    · exact absurd h (by decide)
  · rintro ⟨-, h⟩; exact absurd h (by decide +kernel)

theorem test_meets_CancelSwap :
    (record .cancelSwap []).body = [] ∧ State.reset.store.swap = none ∧
      (withSwap State.reset (pendingSwap .next false)).store.swap = some (pendingSwap .next false) := by decide +kernel

theorem test_meets_IsList :
    IsList 3 (record .lineMap [63, 1, 127]) ∧ ¬IsList 3 (record .lineMap []) ∧ ¬IsList 3 (record .lineMap [63, 1, 127, 0]) ∧
      IsList 4 (record .tapGain [3, 0xFF, 0, 0, 0, 0, 0, 0]) ∧ IsList 2 (record .guardRelease [3, 2]) ∧
      IsList 9 (record .guardSet (List.replicate 9 0)) := by unfold IsList; decide +kernel

theorem test_meets_MapEntries :
    (byteAt [63, 2, 15] 0 < 64 ∧ lineSourceOf 2 15 = some (.return 15)) ∧ 64 ≤ byteAt [64, 0, 0] 0 ∧
      lineSourceOf 1 128 = none ∧ lineSourceOf 3 0 = none ∧ State.reset.store.channels.length = 16 ∧
      byteAt [16, 0, 0] 0 / 16 ≠ State.reset.position.val ∧ byteAt [15, 0, 0] 0 / 16 = State.reset.position.val ∧
      (127 < byteAt [15, 128, 0] 1 ∧ byteAt [15, 128, 0] 1 ≠ 255) ∧ (3 < byteAt [15, 0, 254] 2 ∧ byteAt [15, 0, 254] 2 ≠ 255) ∧
      slotOf 127 = some (some 127) ∧ groupOf 3 = some (some 3) ∧ slotOf 255 = some none := by decide +kernel

theorem test_meets_Override :
    overrideOf [2, 63, 1, 9] = some (.lineMonitor, 63, true) ∧ overrideOf [1, 64, 0, 9] = some (.silence, 0, false) ∧
      2 < byteAt [3, 0, 0, 9] 0 ∧ 1 < byteAt [0, 0, 2, 9] 2 ∧ (byteAt [2, 64, 0, 9] 0 = 2 ∧ 64 ≤ byteAt [2, 64, 0, 9] 1) ∧
      ([2, 64, 0, 9] : List Byte).length = 4 := by decide +kernel

/-- The mode and timing codes at their ends. -/
theorem test_meets_OverrideCodes :
    (byteAt [0, 99, 0] 2 ≤ 1 ∧ byteAt [0, 99, 0] 0 = 0) ∧ (byteAt [1, 0, 1] 2 ≤ 1 ∧ byteAt [1, 0, 1] 0 = 1) ∧
      (byteAt [2, 63, 1] 0 = 2 ∧ byteAt [2, 63, 1] 1 = (63 : Fin 64).val) := by decide +kernel

theorem test_meets_GainEntries :
    ((oneTap 1023).store.bank (oneTap 1023).store.active).getD (field2 [0x03, 0xFF, 0, 0] 0) none = some tapEntry ∧
      ((oneTap 1023).store.bank (oneTap 1023).store.active).getD (field2 [0x04, 0, 0, 0] 0) none = none ∧
      byteAt [16, 0, 0] 0 / 16 ≠ State.reset.position.val ∧ byteAt [15, 0, 0] 0 / 16 = State.reset.position.val := by
  decide +kernel

theorem test_meets_GuardEntries :
    (3 < byteAt [4] 0 ∧ 1 < byteAt [3, 2] 1 ∧ 1 < byteAt [3, 1, 1, 2] 3 ∧ 4 < byteAt [3, 1, 1, 1, 5] 4) ∧
      (byteAt [3, 0, 1, 1, 4] 0 = (3 : Fin 4).val ∧ byteAt [3, 0, 1, 1, 4] 1 = 0 ∧ guardModeOf (byteAt [3, 0, 1, 1, 4] 3) = some .block ∧
        guardActionOf (byteAt [3, 0, 1, 1, 4] 4) = some (.attenuate 4) ∧ byteAt [0, 1, 0, 0, 0] 1 = 1 ∧
        guardModeOf (byteAt [0, 1, 0, 0, 0] 3) = some .latch ∧ guardActionOf (byteAt [0, 1, 0, 0, 0] 4) = some .mute) ∧
      (byteAt [3, 2] 0 = (3 : Fin 4).val ∧ byteAt [3, 2] 1 = 2 ∧ byteAt [3, 1] 1 = 1 ∧ byteAt [3, 0] 1 = 0) ∧
      2 < byteAt [3, 3] 1 ∧ State.reset.out.groups.length = 4 ∧ State.reset.out.insert.verdicts.length = 4 ∧
      State.reset.out.filling.verdicts.length = 4 := by decide +kernel

theorem test_meets_GeneratorEntries :
    (3 < byteAt [4] 0 ∧ 3 < byteAt [3, 4] 1 ∧ 1 < byteAt [3, 3, 0, 1, 0, 0, 2] 6 ∧ 1 < byteAt [3, 3, 0, 1, 0, 0, 1, 2] 7) ∧
      byteAt [3, 3, 0, 1, 0, 0, 1, 1, 16] 0 = (3 : Fin 4).val ∧ genModeOf 3 = some .triangle ∧ directionOf 1 = some .down ∧
      noticeActionOf 1 = some true ∧ (3 < byteAt [4, 0, 0, 0] 0 ∧ 1 < byteAt [3, 0, 0, 2] 3) ∧
      (let g : Generator := { Generator.reset with mode := .triangle, period := 1 }
       0 < g.period ∧ g.mode = .triangle ∧ (0 : Nat) ≠ g.period) ∧
      (let g : Generator := { Generator.reset with mode := .triangle, period := 4095 }
       (4094 : Nat) ≠ 0 ∧ 4094 ≠ g.period ∧ g.counter ≤ g.period) := by decide +kernel

/-- Each mode at the ends of its count. -/
theorem test_meets_GeneratorStep :
    (let g : Generator := { Generator.reset with mode := .ramp, period := 4095, counter := 4095 }
     g.mode = .ramp ∧ g.counter = g.period) ∧
    (let g : Generator := { Generator.reset with mode := .single, period := 4095, counter := 4094 }
     g.mode = .single ∧ g.counter < g.period) ∧
    (let g : Generator := { Generator.reset with mode := .triangle, period := 4095, counter := 1, dir := .down }
     g.mode = .triangle ∧ g.dir = .down ∧ g.counter = 1) ∧
    (let g : Generator := { Generator.reset with mode := .triangle, period := 4095, counter := 4095, dir := .down }
     g.dir = .down ∧ 1 < g.counter) ∧ Generator.reset.mode = .off := by decide +kernel

theorem test_meets_RampSet :
    ([6, 255] : List Byte).length = 2 ∧ (6 < byteAt [7, 254] 0 ∧ byteAt [7, 254] 0 ≠ 255) ∧
      (6 < byteAt [7, 254] 1 ∧ byteAt [7, 254] 1 ≠ 255) ∧ byteAt [6, 255] 1 = 255 := by decide +kernel

theorem test_meets_WrongLength :
    ([0, 0, 0] : List Byte).length < 4 ∧ ([0, 0, 0, 1, 0] : List Byte).length ≠ 4 + 16 * field2 [0, 0, 0, 1, 0] 2 ∧
      State.reset.store.swap = none ∧ State.reset.mem.state.holdsSetup = false ∧ State.reset.records.notices.length < 8 ∧
      (record .restart [0]).body ≠ [] ∧ ((record .state [4]).body.length = 1 ∧ 4 ≤ byteAt (record .state [4]).body 0) ∧
      4 ≤ byteAt (record .state [255]).body 0 := by decide +kernel

theorem test_meets_Mute :
    (record .state [1]).body.length = 1 ∧ byteAt [1] 0 = 1 ∧
      ((inNode State.reset .run).records.node = .run ∧ (inNode State.reset .run).records.drain = none) ∧
      (List.replicate 3 (⟨7, true⟩ : AwaitingMute)).length < 4 ∧ 4 ≤ (List.replicate 4 (⟨7, true⟩ : AwaitingMute)).length ∧
      (inNode State.reset .quiescent).records.node = .quiescent ∧ State.reset.records.node = .muted := by decide +kernel

theorem test_meets_Drain :
    AtBoundary (beforeBoundary .muting) (goodFrame 0 41) ∧ (beforeBoundary .muting).records.node = .muting ∧
      (beforeBoundary .muting).records.drain = none ∧ (beforeBoundary .muting).mem.state = .ready ∧
      ({ Records.reset with drain := some 1 } : Records).drain = some (0 + 1) := by unfold AtBoundary; decide +kernel

theorem test_meets_Run :
    byteAt [0] 0 = 0 ∧ (inNode State.reset .muting).records.node = .muting ∧ State.reset.records.node = .muted ∧
      (inNode State.reset .run).records.node = .run ∧ (inNode State.reset .quiescent).records.node = .quiescent := by
  decide +kernel

theorem test_meets_QuiesceAndWake :
    byteAt [2] 0 = 2 ∧ byteAt [3] 0 = 3 ∧ State.reset.records.node = .muted ∧ State.reset.mem.state ≠ .ready ∧
      (inMem State.reset .entering .none 0).mem.state = .entering ∧ (inMem State.reset .held .none 0).mem.state = .held ∧
      (inMem State.reset .ready .none 0).mem.state = .ready ∧ (inNode State.reset .run).records.node ≠ .muted := by
  decide +kernel

/-- The bytes of a CANCELLED completion: NOTICE, position 2, tag, kind, operation, outcome, written, clamped. -/
theorem test_completion_cell :
    let b := (Notice.completion 0x1234 0x04 .cancelled { written := 1, clamped := 258 } 0xA0B0C0D0).cell 2
    b.take 12 = [2, 2, 0x12, 0x34, 1, 4, 8, 0, 1, 1, 2, 0] ∧ (b.drop 17).take 5 = [0xA0, 0xB0, 0xC0, 0xD0, 0] := by
  decide +kernel

theorem test_meets_StatusRead :
    (let b : List Byte := [1]
     b.length = 1 ∧ (b.getD 0 0).getLsbD 0 = true) ∧ ((0 : Byte).getLsbD 0 = false) ∧
      (List.replicate 7 (Notice.swap 7 40)).length < 8 ∧ 8 ≤ (List.replicate 8 (Notice.swap 7 40)).length := by decide +kernel

theorem test_meets_Restart :
    State.reset.records.restarts = [] ∧ PassMatchesState (passAtBoundary .tapping) ∧
      ({ Records.reset with restarts := [record .restart []] } : Records).restarts = record .restart [] :: [] ∧
      (inMem State.reset .held .none 0).mem.state = .held := by unfold PassMatchesState; decide +kernel

/-! ### States that meet the invariants, with a step -/

theorem test_meets_MemoryCanonical : MemoryCanonical { State.reset with dram := [(0, 1), (33554431, 0)] } := by
  unfold MemoryCanonical; decide +kernel

theorem test_meets_QueuesBounded : QueuesBounded (serving (inMem State.reset .ready .burst 8) tapBurst) := by
  constructor <;> decide +kernel

theorem test_meets_GeneratorsLegal : GeneratorsLegal comparing := by
  refine ⟨rfl, fun g h => ?_⟩
  rw [List.eq_of_mem_replicate h]
  constructor <;> decide

theorem test_meets_GuardsLegal :
    GuardsLegal { State.reset with out := { Output.reset with
      groups := List.replicate 4 ⟨true, .latch, .attenuate 4, 8388608, 255, 255, true, false, .latch, .mute, false⟩ } } := by
  refine ⟨rfl, fun g h => ?_⟩
  rw [List.eq_of_mem_replicate h]
  refine ⟨by decide, by decide, by decide, fun n h => ?_, by decide⟩
  rcases h with h | h
  · cases h; decide
  · cases h

theorem test_meets_MutedIsSilent : MutedIsSilent (beforeBoundary .muted) := by
  refine ⟨rfl, fun _ m h => ?_, fun h => absurd rfl h, by decide +kernel⟩
  rw [List.eq_of_mem_replicate h]
  decide

/-- A list with one place taken. -/
theorem getD_set_replicate {α : Type} (n k i : Nat) (x : α) (h : k < n) :
    ((List.replicate n (none : Option α)).set k (some x)).getD i none = if i = k then some x else none := by
  rw [List.getD_eq_getElem?_getD, List.getElem?_set, List.getElem?_replicate, List.length_replicate]
  by_cases e : k = i
  · subst e; simp [h]
  · have c : ¬(i = k) := fun c => e c.symm
    rw [if_neg e, if_neg c]; split <;> rfl

theorem getD_replicate_none {α : Type} (n i : Nat) : (List.replicate n (none : Option α)).getD i none = none := by
  rw [List.getD_eq_getElem?_getD, List.getElem?_replicate]; split <;> rfl

theorem test_meets_BanksInRole : BanksInRole (oneTap 1023) := by
  have two : ∀ k : BankNo, k = 0 ∨ k = 1 := by decide
  have b : ∀ i, ((oneTap 1023).store.bank 0).getD i none = if i = 1023 then some tapEntry else none := fun i =>
    getD_set_replicate 1024 1023 i tapEntry (by decide)
  have r : ∀ i, ((oneTap 1023).ramps.taps 0).getD i none = if i = 1023 then some ⟨0, 32767, 8, 0⟩ else none := fun i =>
    getD_set_replicate 1024 1023 i _ (by decide)
  have b' : ∀ i, ((oneTap 1023).store.bank 1).getD i none = none := fun i => getD_replicate_none 1024 i
  have r' : ∀ i, ((oneTap 1023).ramps.taps 1).getD i none = none := fun i => getD_replicate_none 1024 i
  refine ⟨by decide +kernel, by decide +kernel, ?_, ?_, ?_, by decide +kernel⟩
  · rintro k i (h | h)
    · have h : k = 0 := h
      subst h; rw [b, r]; split <;> rfl
    · exact absurd h (by decide +kernel)
  · intro k i h _
    rcases two k with k0 | k0
    · exact absurd k0 h
    · subst k0; exact r' i
  · intro k i x h
    rcases two k with k0 | k0 <;> subst k0
    · rw [b] at h; split at h
      · cases h; decide
      · cases h
    · rw [b'] at h; cases h

theorem test_meets_PassAndTimer :
    PassMatchesState (passAtBoundary .writing) ∧ TimerFollowsState (inMem State.reset .draining .refresh 8) := by
  refine ⟨by unfold PassMatchesState; decide +kernel, ?_⟩
  constructor <;> decide +kernel

theorem test_meets_BlockFills :
    let s := lockedAt 2 40
    BlockFills { s with
      link := { s.link with filling := List.replicate 2 [] }
      out := { s.out with recording := List.replicate 2 [] } } := by
  constructor <;> decide +kernel

theorem test_steps_from_there : ∃ t, step { comparing with pending := [.refreshDue] } = .next t := ⟨_, rfl⟩

end Sys2Proof.Tests
end

section
/-! PROOF. The execution of a record at the head of the live-class queue, and the CANCEL-SWAP (R39). -/

namespace Sys2Proof.Machine

open Sys2Proof.Safety

/-! ### The head of the live-class queue -/

/-- R163, R164: with the reset pin released, the record at the head of the live-class queue has its effect. -/
theorem running_atLiveHead {s : State} {op : Op} {r : Record} (f : State → Record → State) (h : AtLive s op r) :
    s.running (fun s => s.atLiveHead op (f s)) = .next (f s r) := by
  obtain ⟨released, head, isOp⟩ := h
  obtain ⟨rest, live⟩ := List.head?_eq_some_iff.mp head
  simp [State.running, State.atLiveHead, released, live, isOp]

/-- R165: a record whose body has a right length has the effect of its operation. -/
@[simp] theorem State.liveList_true (s : State) (r : Record) (f : State) : s.liveList r true f = f := rfl

/-- R163, R169: the completion of a live-class record changes the record engine alone. -/
theorem State.completeLive_eq (s : State) (r : Record) (o : RecordOutcome) (c : Counts) :
    s.completeLive r o c = { s with records := liveDone s r o c } := rfl

/-! ### A notice and the live-class queue -/

/-- Whether a notice finds a place does not depend on the live-class queue. -/
theorem Records.queueNotice_withLive (q : Records) (n : Notice) (l : List Record) :
    { q.queueNotice n with live := l } = { q with live := l }.queueNotice n := by
  unfold Records.queueNotice
  split <;> rfl

/-- R169: a completion other than DONE queues its notice whatever the notify flag. -/
theorem Records.complete_of_ne_done (q : Records) (b : Block) (tag : Half) (op : Op) (notify : Bool)
    (o : RecordOutcome) (c : Counts) (h : o ≠ .done) :
    q.complete b tag op notify o c = q.queueNotice (.completion tag op.code o c b) :=
  if_neg fun done => h done.1

/-! ### CANCEL-SWAP -/

/-- R39: a CANCEL-SWAP that finds no swap pending completes DONE with a written count of 0. -/
theorem State.cancelSwap_of_none {s : State} {r : Record} (body : r.body = []) (swap : s.store.swap = none) :
    s.cancelSwap r = s.completeLive r .done {} := by
  simp [State.cancelSwap, body, swap]

/-- R39: a CANCEL-SWAP that finds a swap pending removes it, completes it CANCELLED, and then completes itself. -/
theorem State.cancelSwap_of_some {s : State} {r : Record} {w : PendingSwap} (body : r.body = [])
    (swap : s.store.swap = some w) :
    s.cancelSwap r = (((s.withStore { s.store with swap := none }).popTable).complete w.tag .swap w.notify .cancelled
      {}).completeLive r .done { written := 1 } := by
  simp [State.cancelSwap, body, swap]

/-- R39, R169: the record engine after the SWAP at the head of the table-class queue completed CANCELLED and then the record
at the head of the live-class queue completed: both heads leave, and the notice of the SWAP comes first. -/
theorem liveDone_of_cancelled (s : State) (r : Record) (w : PendingSwap) (o : RecordOutcome) (c : Counts) :
    liveDone (s.popTable.complete w.tag .swap w.notify .cancelled {}) r o c =
      ({ s.records with table := s.records.table.drop 1, live := s.records.live.drop 1 }.queueNotice
        (.completion w.tag Op.swap.code .cancelled {} s.noticeBlock)).complete s.noticeBlock r.tag r.op r.notify o c := by
  have cancelled : (s.popTable.complete w.tag .swap w.notify .cancelled {}).records =
      s.popTable.records.queueNotice (.completion w.tag Op.swap.code .cancelled {} s.noticeBlock) :=
    Records.complete_of_ne_done s.popTable.records s.noticeBlock w.tag .swap w.notify .cancelled {} (by decide)
  have live : (s.popTable.complete w.tag .swap w.notify .cancelled {}).records.live = s.records.live :=
    (sameButNotices_complete s.popTable.records s.noticeBlock w.tag .swap w.notify .cancelled {}).live
  unfold liveDone
  rw [live, cancelled, Records.queueNotice_withLive]
  rfl

/-- Settles O36: the record at the head has its effect, by whether a swap is pending; the notice of the cancelled SWAP is
queued alike before and after the CANCEL-SWAP has left its queue. -/
theorem cancelSwapRemovesThePendingSwap : Obligations.CancelSwapRemovesThePendingSwap := by
  intro s r atHead body
  have executes : exec .cancelSwap s = .next (s.cancelSwap r) := running_atLiveHead State.cancelSwap atHead
  refine ⟨fun swap => ?noSwap, fun w swap => ?pending⟩
  case noSwap => rw [executes, State.cancelSwap_of_none body swap, State.completeLive_eq]
  case pending =>
    rw [executes, State.cancelSwap_of_some body swap, State.completeLive_eq, liveDone_of_cancelled]
    rfl

end Sys2Proof.Machine
end

section
/-! PROOF. The exponents of the two ramp units, and the RAMP-SET that replaces them (R79). -/

namespace Sys2Proof.Machine

open Sys2Proof.Safety

/-! ### The codes of a RAMP-SET and how they count -/

/-- R79: the three ranges of a code in one spelling: 255 leaves the exponent, every other code gives it at most 6, and the
codes between count as clamped. -/
theorem unitCode_eq (old code : Nat) :
    unitCode old code = (if code = 255 then old else min code 6,
      { written := code ≠ 255, clamped := 6 < code ∧ code ≠ 255 }) := by
  unfold unitCode
  split
  next exponent =>
    have other : code ≠ 255 := by omega
    simp [other, exponent]
  next above =>
    split
    next keeps => simp [keeps]
    next other =>
      have clamped : 6 < code := by omega
      simp [other, clamped, clamped.le]

/-- R79, R169: two entries that count as nothing but written and clamped; the first index is that of the first clamped
entry, if any. -/
theorem Tally.add_two (w₀ c₀ w₁ c₁ : Bool) :
    (({} : Tally).add 0 { written := w₀, clamped := c₀ }).add 1 { written := w₁, clamped := c₁ } =
      { written := bit w₀ 1 + bit w₁ 1, clamped := bit c₀ 1 + bit c₁ 1
        first := if c₀ then some 0 else if c₁ then some 1 else none } := by
  cases c₀ <;> simp [Tally.add, Mark.flagged, bit]

/-- R169: with no entry discarded, the completion is with clamps exactly when an entry was flagged. -/
theorem Tally.outcome_of_none_discarded {t : Tally} (h : t.discarded = 0) :
    t.outcome = if t.first.isSome then .doneWithClamps else .done := by
  simp [Tally.outcome, h]

/-! ### RAMP-SET -/

/-- R79: a RAMP-SET of two codes gives each unit what its code says and completes with the counts of the two codes; the
ramps themselves stand. -/
theorem State.rampSet_of_two {s : State} {r : Record} (body : r.body.length = 2) :
    s.rampSet r =
      let a := unitCode s.ramps.unitA (byteAt r.body 0)
      let b := unitCode s.ramps.unitB (byteAt r.body 1)
      let t := (({} : Tally).add 0 a.2).add 1 b.2
      { s with
        ramps := { s.ramps with unitA := a.1, unitB := b.1 }
        records := liveDone s r t.outcome t.counts } := by
  unfold State.rampSet
  rw [body]
  rfl

/-! ### The units of a retarget -/

/-- R78: the length a unit gives is 2 to its exponent. -/
theorem Ramps.unitLen_eq (q : Ramps) (u : RampUnit) :
    q.unitLen u = 2 ^ (if u = .a then q.unitA else q.unitB) := by
  cases u <;> rfl

/-- Settles O44: the record at the head has its effect on the two exponents by the ranges of its codes, and a retarget
reads the exponents that stand. -/
theorem rampSetReplacesTheExponents : Obligations.RampSetReplacesTheExponents := by
  refine ⟨fun s r atHead body => ?rampSet, fun q c g => rfl, fun q k i e g => ?retargetTap⟩
  case rampSet =>
    have executes : exec .rampSet s = .next (s.rampSet r) := running_atLiveHead State.rampSet atHead
    rw [executes, State.rampSet_of_two body]
    simp only [unitCode_eq, Tally.add_two, Tally.outcome_of_none_discarded]
    by_cases clampedA : 6 < byteAt r.body 0 ∧ byteAt r.body 0 ≠ 255
    all_goals by_cases clampedB : 6 < byteAt r.body 1 ∧ byteAt r.body 1 ≠ 255
    all_goals simp [Tally.counts, bit, clampedA, clampedB]
  case retargetTap => simp only [Ramps.retargetTap, Ramps.unitLen_eq]

end Sys2Proof.Machine
end

section
/-! PROOF. The intake of the record engine: what a fragment does to the assembly of a record (R158 to R162). -/

namespace Sys2Proof.Machine

/-! ### The content of a fragment -/

/-- R159: the content has as many bytes as the fragment counts, when the payload holds them. -/
theorem Fragment.length_content {g : Fragment} (count : g.count ≤ 246) (payload : g.payload.length = 246) :
    (g.payload.take g.count).length = g.count :=
  List.length_take_of_le (payload ▸ count)

theorem getD_take_of_lt {b : List Byte} {n i : Nat} (inside : i < n) : (b.take n).getD i 0 = b.getD i 0 := by
  simp only [List.getD_eq_getElem?_getD, List.getElem?_take_of_lt inside]

theorem field2_take_of_lt {b : List Byte} {n i : Nat} (inside : i + 1 < n) : field2 (b.take n) i = field2 b i := by
  simp only [field2, byteAt, getD_take_of_lt inside, getD_take_of_lt (Nat.lt_of_succ_lt inside)]

/-! ### The assembly in progress -/

theorem State.withAssembly_none_of_none {s : State} (empty : s.records.assembly = none) : s.withAssembly none = s := by
  rw [← empty]
  rfl

/-- R160: an assembly in progress ends, and its TRUNCATED notice carries the index it expected next. -/
theorem State.abandonAssembly_of_some {s : State} {a : Assembly} (busy : s.records.assembly = some a) :
    s.abandonAssembly = s.withRecords ({ s.records with assembly := none }.queueNotice
      (.completion a.tag a.op.code .truncated { first := a.next } s.noticeBlock)) := by
  simp only [State.abandonAssembly, busy]
  rfl

theorem State.abandonAssembly_of_none {s : State} (empty : s.records.assembly = none) : s.abandonAssembly = s := by
  simp only [State.abandonAssembly, empty]

/-- R160: after an abandonment no assembly is in progress, whether or not one was before. -/
@[simp] theorem State.abandonAssembly_assembly (s : State) : s.abandonAssembly.records.assembly = none := by
  cases progress : s.records.assembly with
  | none => rw [State.abandonAssembly_of_none progress, progress]
  | some a => simp [State.abandonAssembly_of_some progress]

/-- R162: the bytes assembled make the record complete or leave it waiting for more; one that they overrun, or that its last
fragment leaves short, is refused. -/
theorem State.testAssembly_eq (s : State) (a : Assembly) (index : Nat) (last : Bool) :
    s.testAssembly a index last =
      if a.bytes.length = a.total then (s.withAssembly none).enqueue ⟨a.tag, a.op, a.notify, a.bytes.drop 4⟩
      else if a.bytes.length < a.total ∧ last = false then s.withAssembly (some a)
      else (s.withAssembly none).refuseRecord a.tag a.op.code index := by
  unfold State.testAssembly
  rcases Nat.lt_trichotomy a.bytes.length a.total with short | complete | long
  · cases last <;> simp [short, short.ne, short.not_gt]
  · simp [complete]
  · simp [long, long.ne', long.not_gt]

/-! ### The first fragment of a record -/

/-- R160: fragment 0 with a sound header begins an assembly, to which the test of R162 is put at once. -/
theorem State.startAssembly_of_sound (s : State) {g : Fragment} {op : Op} (header : 4 ≤ g.count)
    (named : opOf (g.payload.getD 0 0) = some op) (low : 4 ≤ field2 g.payload 2) (high : field2 g.payload 2 ≤ 16400) :
    s.startAssembly g = s.testAssembly
      ⟨g.tag, op, (g.payload.getD 1 0).getLsbD 0, field2 g.payload 2, g.payload.take g.count, 1⟩ 0 g.last := by
  have code : (g.payload.take g.count).getD 0 0 = g.payload.getD 0 0 := getD_take_of_lt (by omega)
  have flags : (g.payload.take g.count).getD 1 0 = g.payload.getD 1 0 := getD_take_of_lt (by omega)
  have total : field2 (g.payload.take g.count) 2 = field2 g.payload 2 := field2_take_of_lt header
  have inRange : ¬(g.count < 4 ∨ field2 g.payload 2 < 4 ∨ 16400 < field2 g.payload 2) := by omega
  simp only [State.startAssembly, code, flags, total, named, if_neg inRange]

/-- R160: fragment 0 is refused when its header is incomplete, names no operation or has a total length out of range. An
incomplete header is refused for its count alone: the payload bytes after the content are disregarded (R159). -/
theorem State.startAssembly_of_unsound (s : State) {g : Fragment} (nonempty : 0 < g.count)
    (unsound : g.count < 4 ∨ opOf (g.payload.getD 0 0) = none ∨ field2 g.payload 2 < 4 ∨ 16400 < field2 g.payload 2) :
    s.startAssembly g = s.refuseRecord g.tag (g.payload.getD 0 0) 0 := by
  have code : (g.payload.take g.count).getD 0 0 = g.payload.getD 0 0 := getD_take_of_lt nonempty
  simp only [State.startAssembly, code]
  cases named : opOf (g.payload.getD 0 0) with
  | none => rfl
  | some op =>
    refine if_pos ?_
    by_cases header : 4 ≤ g.count
    · rw [field2_take_of_lt header]
      rwa [named, or_iff_right (Option.some_ne_none op)] at unsound
    · exact .inl (Nat.lt_of_not_le header)

/-! ### A continuation -/

theorem State.continueAssembly_of_none {s : State} (g : Fragment) (empty : s.records.assembly = none) :
    s.continueAssembly g = s := by
  simp only [State.continueAssembly, empty]

/-- R161: with an assembly in progress, a continuation is accepted by its tag and its index, or abandons. -/
theorem State.continueAssembly_of_some {s : State} {a : Assembly} (g : Fragment) (busy : s.records.assembly = some a) :
    s.continueAssembly g =
      if g.tag = a.tag ∧ g.index = a.next then
        s.testAssembly { a with bytes := a.bytes ++ g.payload.take g.count, next := a.next + 1 } g.index g.last
      else s.abandonAssembly := by
  simp only [State.continueAssembly, busy]

/-! ### A fragment by its byte count and its index -/

/-- R159: a fragment without usable content abandons, and is refused if it is fragment 0. -/
theorem State.takeFragment_of_unusable (s : State) {g : Fragment} (unusable : g.count = 0 ∨ 246 < g.count) :
    s.takeFragment g =
      if g.index = 0 then s.abandonAssembly.refuseRecord g.tag (g.payload.getD 0 0) 0 else s.abandonAssembly :=
  if_pos unusable

/-- R160: a usable fragment 0 starts anew, whatever assembly was in progress. -/
theorem State.takeFragment_of_first (s : State) {g : Fragment} (nonempty : 0 < g.count) (count : g.count ≤ 246)
    (first : g.index = 0) : s.takeFragment g = s.abandonAssembly.startAssembly g := by
  have usable : ¬(g.count = 0 ∨ 246 < g.count) := by omega
  rw [State.takeFragment, if_neg usable, if_pos first]

/-- R161: a usable fragment of any other index is a continuation. -/
theorem State.takeFragment_of_later (s : State) {g : Fragment} (nonempty : 0 < g.count) (count : g.count ≤ 246)
    (later : 0 < g.index) : s.takeFragment g = s.continueAssembly g := by
  have usable : ¬(g.count = 0 ∨ 246 < g.count) := by omega
  rw [State.takeFragment, if_neg usable, if_neg later.ne']

/-- R159, R161: without an assembly, no fragment of index 1 or more does anything, whatever its byte count. -/
theorem State.takeFragment_of_later_of_none {s : State} {g : Fragment} (later : 0 < g.index)
    (empty : s.records.assembly = none) : s.takeFragment g = s := by
  by_cases unusable : g.count = 0 ∨ 246 < g.count
  · rw [State.takeFragment_of_unusable s unusable, if_neg later.ne', State.abandonAssembly_of_none empty]
  · rw [State.takeFragment_of_later s (by omega) (by omega) later, State.continueAssembly_of_none g empty]

/-- Settles O16: a fragment is taken by its byte count, its index and the assembly in progress, and one that is accepted
meets the test of R162 with as many bytes more as it counts. -/
theorem fragmentsAreAssembled : Obligations.FragmentsAreAssembled := by
  refine ⟨⟨fun b s => rfl, fun s a busy => State.abandonAssembly_of_some busy,
      fun s empty => State.abandonAssembly_of_none empty, ?first⟩,
    ⟨?continuation, fun s g empty later => State.takeFragment_of_later_of_none later empty,
      fun s g unusable => State.takeFragment_of_unusable s unusable⟩,
    ?unsound, fun s tag code first => rfl⟩
  case first =>
    intro s g op first header count payload named low high
    rw [State.takeFragment_of_first s (by omega) count first, State.startAssembly_of_sound _ header named low high,
      State.testAssembly_eq, State.withAssembly_none_of_none s.abandonAssembly_assembly,
      Fragment.length_content count payload]
  case continuation =>
    intro s g a busy later nonempty count payload
    rw [State.takeFragment_of_later s nonempty count later, State.continueAssembly_of_some g busy,
      State.testAssembly_eq, List.length_append, Fragment.length_content count payload]
  case unsound =>
    intro s g first nonempty count _ unsound
    rw [State.takeFragment_of_first s nonempty count first, State.startAssembly_of_unsound _ nonempty unsound]

end Sys2Proof.Machine
end

section
/-! PROOF. Every step keeps the delay memory in canonical form (log 7). -/

namespace Sys2Proof.Machine

open Sys2Proof.Safety

/-- R134: the access of a burst keeps the canonical form: a write burst stores words of the device. -/
theorem State.access_wf {s : State} (q : BurstRequest) (h : Memory.wf s.dram) : Memory.wf (s.access q).dram := by
  unfold State.access
  cases q.kind with
  | read => simpa using h
  | write values => simpa using writeBurst_wf q.line q.position values h

/-- R132, R134: the end of a burst's service keeps the canonical form. -/
theorem State.endBurst_wf {s : State} (h : Memory.wf s.dram) : Memory.wf s.endBurst.dram := by
  unfold State.endBurst
  split
  next q rest service queue => simpa using State.access_wf q h
  next => exact h

/-- Settles O52: a power-on filters the list of bytes, the end of a burst writes bytes of the device, and no other command
touches them. -/
theorem stepKeepsMemoryCanonical : Obligations.StepKeepsMemoryCanonical := by
  intro s t canonical
  refine step_keeps (P := MemoryCanonical) (fun c s t hs executes => ?_) (fun s q hs => hs) canonical
  apply exec_keeps executes hs
  case power => exact fun p => State.wf_unrefreshed hs
  case assert => exact State.wf_unrefreshed hs
  case release => exact fun p => hs
  case burst => exact State.endBurst_wf hs
  case arrival => intro f g; simpa [MemoryCanonical, State.arrival] using hs
  all_goals intros; simpa [MemoryCanonical] using hs

end Sys2Proof.Machine
end

section
/-! PROOF. A frame arrival and a block boundary taken apart: what keeps a property of the node phase by phase. -/

namespace Sys2Proof.Machine

/-! ### The body checks of a record -/

/-- R165: a record of the live class has its effect or completes MALFORMED. -/
theorem State.liveList_keeps {P : State → Prop} {s u : State} {r : Record} {ok : Bool} (effect : P u)
    (malformed : P (s.completeLive r .malformed {})) : P (s.liveList r ok u) := by
  unfold State.liveList
  split
  · exact effect
  · exact malformed

/-- R165: a record of the table class has its effect or completes MALFORMED. -/
theorem State.tableList_keeps {P : State → Prop} {s u : State} {r : Record} {ok : Bool} (effect : P u)
    (malformed : P (s.completeTable r .malformed {})) : P (s.tableList r ok u) := by
  unfold State.tableList
  split
  · exact effect
  · exact malformed

/-! ### A block boundary -/

/-- R145, R146: a property that every phase of a boundary keeps is kept by the boundary (log 10). -/
theorem State.boundary_phases {P : State → Prop} {s : State} {b n : Block} {x : Bool} (hs : P s)
    (turn : ∀ s n, P s → P (s.turnBlock n)) (renumber : ∀ s b n, P s → P (s.renumber b n))
    (step : ∀ s n, P s → P (s.stepGenerators n)) (judge : ∀ s served n, P s → P (s.swapAtBoundary served n).1)
    (close : ∀ s swapped, P s → P (s.closePass swapped)) (exchange : ∀ s, P s → P s.exchangeBuffers)
    (copy : ∀ s, P s → P s.copyChannels) (silence : ∀ s, P s → P (s.withOut s.out.takeSilencePending))
    (drain : ∀ s, P s → P s.drainAtBoundary) (start : ∀ s b, P s → P (s.beginPass b))
    (noStart : ∀ s n, P s → P (s.beginNoPass n)) (reap : ∀ s, P s → P s.reapEnding)
    (advance : ∀ s, P s → P s.advanceMem) : P (s.boundary b n x) := by
  have turned : P (s.boundaryTurned b n x) := by
    unfold State.boundaryTurned
    split
    · exact renumber _ _ _ (turn _ _ hs)
    · exact turn _ _ hs
  have closed : P (s.boundaryClosed b n x) := close _ _ (judge _ _ _ (step _ _ turned))
  have ready : P (s.boundaryReady b n x) := drain _ (silence _ (copy _ (exchange _ closed)))
  rw [State.boundary_eq]
  refine advance _ (reap _ ?_)
  split
  · exact start _ _ ready
  · exact noStart _ _ ready

/-! ### A frame arrival -/

/-- R144: a damaged or missing position loses the link or is taken. -/
theorem State.badPosition_phases {P : State → Prop} {s : State} {f : Option Frame} (hs : P s)
    (link : ∀ s l, P s → P (s.withLink l)) (lose : ∀ s, P s → P s.loseLink)
    (position : ∀ s f bad, P s → P (s.takePosition f bad)) : P (s.badPosition f) := by
  unfold State.badPosition
  dsimp only
  split
  · exact lose _ (link _ _ hs)
  · exact position _ _ _ (link _ _ hs)

/-- R143: a property that reads neither the link port nor the floor, and that every other part of a relock keeps, is kept by
the relock. -/
theorem State.relock_phases {P : State → Prop} {s : State} {f : Frame} (hs : P s) (link : ∀ s l, P s → P (s.withLink l))
    (floor : ∀ s x, P s → P (s.withLines x))
    (recordings : ∀ s x y, P s → P (s.withOut { s.out with recording := x, recorded := y }))
    (notice : ∀ s n, P s → P (s.queueNotice n)) (copy : ∀ s, P s → P s.copyChannels)
    (place : ∀ s f, P s → P (s.placeNotice f)) (position : ∀ s f bad, P s → P (s.takePosition f bad)) :
    P (s.relock f) :=
  position _ _ _ (place _ _ (copy _ (notice _ _ (recordings _ _ _ (floor _ _ (link _ _ hs))))))

/-- R154: a property that reads neither the link port nor the notices' order, and that the oldest notice's leaving keeps, is
kept by the placing of a notice. -/
theorem State.placeNotice_phases {P : State → Prop} {s : State} {f : Frame} (hs : P s)
    (link : ∀ s l, P s → P (s.withLink l))
    (leaves : ∀ s n rest, s.records.notices = n :: rest → P s → P (s.withRecords { s.records with notices := rest })) :
    P (s.placeNotice f) := by
  unfold State.placeNotice
  split
  next n rest notices =>
    split
    · exact link _ _ (leaves _ _ _ notices hs)
    · exact hs
  next => exact hs

/-- R142 to R148: a property that reads neither the link port nor LINK-OUT, and that every other part of an arrival after
its samples keeps, is kept by it; a boundary is taken in LOCKED by a good frame of index 0 at the expected index 0 alone. -/
theorem State.takeArrival_phases {P : State → Prop} {s : State} {f : Frame} (hs : P s)
    (link : ∀ s l, P s → P (s.withLink l)) (linkOut : ∀ s x, P s → P (s.withLinkOut x))
    (relock : ∀ s f, P s → P (s.relock f))
    (boundary : s.link.state = .locked → s.link.expected = 0 → f.good = true → f.index = 0 →
      ∀ s b n x, P s → P (s.boundary b n x)) (place : ∀ s f, P s → P (s.placeNotice f))
    (position : ∀ s f bad, P s → P (s.takePosition f bad)) (lose : ∀ s, P s → P s.loseLink) : P (s.takeArrival f) := by
  have seek : ∀ u, P u → P (u.seek f) := by
    intro u hu
    unfold State.seek
    split
    · exact relock _ _ hu
    · exact linkOut _ _ hu
  unfold State.takeArrival
  split
  · exact seek _ hs
  · exact seek _ (link _ _ hs)
  next locked =>
    unfold State.lockedArrival
    dsimp only
    split
    · exact State.badPosition_phases (link _ _ (link _ _ hs)) link lose position
    next undamaged =>
      split
      next first =>
        have first : s.link.expected = 0 := first
        have whole : f.good = true ∧ f.index.toNat = 0 := by simpa [Link.damages, first] using undamaged
        exact position _ _ _ (place _ _ (boundary locked first whole.1 (BitVec.eq_of_toNat_eq whole.2) _ _ _ _ (link _ _ hs)))
      · exact position _ _ _ (link _ _ (link _ _ hs))

/-- R114, R122, R142: the same for the whole arrival. -/
theorem State.arrival_phases {P : State → Prop} {s : State} {f : Frame} {g : Bool} (hs : P s)
    (link : ∀ s l, P s → P (s.withLink l)) (linkOut : ∀ s x, P s → P (s.withLinkOut x))
    (sample : ∀ s g, P s → P (s.atArrival g)) (relock : ∀ s f, P s → P (s.relock f))
    (boundary : ∀ s b n x, P s → P (s.boundary b n x)) (place : ∀ s f, P s → P (s.placeNotice f))
    (position : ∀ s f bad, P s → P (s.takePosition f bad)) (lose : ∀ s, P s → P s.loseLink) : P (s.arrival f g) :=
  State.takeArrival_phases (sample _ _ hs) link linkOut relock (fun _ _ _ _ => boundary) place position lose

/-- R142: the same for an expiry of the frame-gap timer. -/
theorem State.gapExpiry_phases {P : State → Prop} {s : State} (hs : P s) (link : ∀ s l, P s → P (s.withLink l))
    (lose : ∀ s, P s → P s.loseLink) (position : ∀ s f bad, P s → P (s.takePosition f bad)) : P s.gapExpiry := by
  unfold State.gapExpiry
  split
  · exact State.badPosition_phases (link _ _ hs) link lose position
  · exact hs
  · exact hs

/-- R153: a position hands the cell over at index 31; else the record engine does not see it. -/
theorem State.takePosition_phases {P : State → Prop} {s : State} {f : Option Frame} {bad : Bool} (hs : P s)
    (link : ∀ s l, P s → P (s.withLink l)) (linkOut : ∀ s x, P s → P (s.withLinkOut x))
    (recording : ∀ s x, P s → P (s.withOut { s.out with recording := x }))
    (cell : ∀ s b, P s → P (s.takeCell b)) : P (s.takePosition f bad) := by
  have handover : ∀ u, P u → P u.handover := by
    intro u hu
    unfold State.handover
    split
    · exact hu
    · dsimp only
      split
      · exact link _ _ (link _ _ hu)
      · exact cell _ _ (link _ _ hu)
  unfold State.takePosition
  dsimp only
  split
  · exact handover _ (link _ _ (recording _ _ (linkOut _ _ hs)))
  · exact link _ _ (recording _ _ (linkOut _ _ hs))

/-- R159 to R163: a property that the queueing of a notice, the three queues of records and the assembly keep is kept by a
cell. -/
theorem State.takeCell_phases {P : State → Prop} {s : State} {b : List Byte} (hs : P s)
    (notice : ∀ s n, P s → P (s.queueNotice n)) (assembly : ∀ s a, P s → P (s.withAssembly a))
    (enqueue : ∀ s r, P s → P (s.enqueue r)) : P (s.takeCell b) := by
  have abandon : ∀ u, P u → P u.abandonAssembly := by
    intro u hu
    unfold State.abandonAssembly
    split
    · exact hu
    · exact notice _ _ (assembly _ _ hu)
  have refuse : ∀ u tag code first, P u → P (u.refuseRecord tag code first) := fun u _ _ _ hu => notice _ _ hu
  have test : ∀ u a i l, P u → P (u.testAssembly a i l) := by
    intro u a i l hu
    rw [State.testAssembly_eq]
    split
    · exact enqueue _ _ (assembly _ _ hu)
    · split
      · exact assembly _ _ hu
      · exact refuse _ _ _ _ (assembly _ _ hu)
  have start : ∀ u g, P u → P (u.startAssembly g) := by
    intro u g hu
    unfold State.startAssembly
    dsimp only
    split
    · exact refuse _ _ _ _ hu
    · split
      · exact refuse _ _ _ _ hu
      · exact test _ _ _ _ hu
  have goOn : ∀ u g, P u → P (u.continueAssembly g) := by
    intro u g hu
    unfold State.continueAssembly
    split
    · exact hu
    · split
      · exact test _ _ _ _ hu
      · exact abandon _ hu
  unfold State.takeCell State.takeFragment
  split
  · split
    · split
      · exact refuse _ _ _ _ (abandon _ hs)
      · exact abandon _ hs
    · split
      · exact start _ _ (abandon _ hs)
      · exact goOn _ _ hs
  · exact hs

end Sys2Proof.Machine
end

section
/-! PROOF. What going on, a WAKE and the queueing of a notice leave of the controller and of the record engine. -/

namespace Sys2Proof.Machine

/-- R134: going on changes the state, the refreshes of SETTING and the service alone. -/
theorem MemController.advance_rest (m : MemController) (n : Nat) : m.advance n = { m with
    state := (m.advance n).state, settingRefreshes := (m.advance n).settingRefreshes
    service := (m.advance n).service, periods := (m.advance n).periods } := by
  generalize result : m.advance n = a
  unfold MemController.advance at result
  generalize drained : (if m.state = .draining ∧ n = 0 then
    { m with state := .setting, settingRefreshes := m.owed } else m) = d at result
  have fromDrained : d = { m with state := d.state, settingRefreshes := d.settingRefreshes } := by
    rw [← drained]
    split <;> rfl
  have served : a = { d with service := a.service, periods := a.periods } := by
    rw [← result]
    dsimp only
    split
    · rfl
    · split
      · exact d.serveQueue_rest
      · exact d.serveQueue_rest
      · split
        · rfl
        · exact d.serveQueue_rest
      · split <;> rfl
      all_goals rfl
  rw [served, fromDrained]

/-- R134: going on leaves what no service changes. -/
@[simp] theorem MemController.advance_keeps (m : MemController) (n : Nat) :
    (m.advance n).queue = m.queue ∧ (m.advance n).owed = m.owed ∧ (m.advance n).timer = m.timer ∧
    (m.advance n).selfRefresh = m.selfRefresh := by
  have rest := m.advance_rest n
  refine ⟨?_, ?_, ?_, ?_⟩ <;> rw [rest]

/-- R132: a request is accepted in the states that serve bursts, while the queue holds fewer than 16. -/
theorem MemController.accepts_iff (m : MemController) : m.accepts = true ↔
    (m.state = .ready ∨ m.state = .draining ∨ m.state = .entering) ∧ m.queue.length < 16 := by
  simp [MemController.accepts, or_assoc]

/-- R130, R131: a WAKE leaves the burst queue, the refreshes owed and the timer. -/
@[simp] theorem MemController.wake_keeps (m : MemController) :
    m.wake.queue = m.queue ∧ m.wake.owed = m.owed ∧ m.wake.timer = m.timer ∧ m.wake.selfRefresh = false ∧
    m.wake.settingRefreshes = m.settingRefreshes := by
  unfold MemController.wake
  dsimp only
  cases m.state with
  | entering => dsimp only; split <;> simp
  | _ => simp [MemController.serve]

/-- R170: a notice joins the queue only where it holds fewer than eight. -/
theorem Records.queueNotice_length {r : Records} (h : r.notices.length ≤ 8) (n : Notice) :
    (r.queueNotice n).notices.length ≤ 8 := by
  unfold Records.queueNotice
  split
  · simp; omega
  · exact h

@[simp] theorem MemController.refreshDue_queue (m : MemController) : m.refreshDue.queue = m.queue := by
  unfold MemController.refreshDue
  split
  · split <;> rfl
  · rfl
  · rfl

@[simp] theorem MemController.refreshEnd_queue (m : MemController) : m.refreshEnd.queue = m.queue := by
  unfold MemController.refreshEnd
  dsimp only
  split <;> rfl

/-- R136: an expiry raises the count to at most eight. -/
theorem MemController.refreshDue_owed {m : MemController} (h : m.owed ≤ 8) : m.refreshDue.owed ≤ 8 := by
  unfold MemController.refreshDue
  split
  · split
    · dsimp only; omega
    · exact h
  · exact h
  · exact h

/-- R136, R137: the end of a refresh raises the count no higher than it stood, or to one. -/
theorem MemController.refreshEnd_owed {m : MemController} (h : m.owed ≤ 8) : m.refreshEnd.owed ≤ 8 := by
  unfold MemController.refreshEnd
  dsimp only
  split <;> dsimp only <;> omega

end Sys2Proof.Machine
end

section
/-! PROOF. Every step keeps the queues and the owed-refresh count within their bounds (R88, R132, R136, R163, R170). -/

namespace Sys2Proof.Safety

open Machine

/-! ### The bounds, block by block -/

/-- The bounds of the record engine in QueuesBounded. -/
structure RecordsBounded (r : Records) : Prop where
  notices : r.notices.length ≤ 8
  live : r.live.length ≤ 2
  table : r.table.length ≤ 2
  awaitingMute : r.awaitingMute.length ≤ 4
  elsewhere : r.node ≠ .muting → r.awaitingMute = []

/-- The bounds of the delay memory controller in QueuesBounded. -/
structure MemBounded (m : MemController) : Prop where
  bursts : m.queue.length ≤ 16
  owed : m.owed ≤ 8

/-- The bounds, block by block: what a change of another block leaves is the same proposition. -/
def NodeBounded (s : State) : Prop := RecordsBounded s.records ∧ MemBounded s.mem

theorem queuesBounded_iff {s : State} : QueuesBounded s ↔ NodeBounded s :=
  ⟨fun ⟨n, l, t, a, e, b, o⟩ => ⟨⟨n, l, t, a, e⟩, b, o⟩, fun ⟨⟨n, l, t, a, e⟩, b, o⟩ => ⟨n, l, t, a, e, b, o⟩⟩

/-! ### The record engine -/

theorem RecordsBounded.sameButNotices {r q : Records} (h : RecordsBounded r) (same : SameButNotices r q)
    (notices : q.notices.length ≤ 8) : RecordsBounded q := by
  refine ⟨notices, ?_, ?_, ?_, ?_⟩
  · rw [same.live]; exact h.live
  · rw [same.table]; exact h.table
  · rw [same.awaitingMute]; exact h.awaitingMute
  · rw [same.awaitingMute, same.node]; exact h.elsewhere

theorem RecordsBounded.queueNotice {r : Records} (h : RecordsBounded r) (n : Notice) : RecordsBounded (r.queueNotice n) :=
  h.sameButNotices (sameButNotices_queueNotice r n) (Records.queueNotice_length h.notices n)

theorem RecordsBounded.queueNotices {r : Records} (h : RecordsBounded r) (ns : List Notice) :
    RecordsBounded (ns.foldl Records.queueNotice r) := by
  induction ns generalizing r with
  | nil => exact h
  | cons n ns ih => exact ih (h.queueNotice n)

theorem RecordsBounded.complete {r : Records} (h : RecordsBounded r) (b : Block) (tag : Half) (op : Op) (notify : Bool)
    (o : RecordOutcome) (c : Counts) : RecordsBounded (r.complete b tag op notify o c) := by
  unfold Records.complete
  split
  · exact h
  · exact h.queueNotice _

theorem RecordsBounded.popTable {r : Records} (h : RecordsBounded r) :
    RecordsBounded { r with table := r.table.drop 1 } :=
  ⟨h.notices, h.live, by have := h.table; simp; omega, h.awaitingMute, h.elsewhere⟩

theorem RecordsBounded.popLive {r : Records} (h : RecordsBounded r) : RecordsBounded { r with live := r.live.drop 1 } :=
  ⟨h.notices, by have := h.live; simp; omega, h.table, h.awaitingMute, h.elsewhere⟩

/-- R88, R89, R91: the completion of the awaiting mutes empties their list and queues notices. -/
theorem nodeBounded_completeMutes {s : State} (emptied : RecordsBounded { s.records with awaitingMute := [] })
    (mem : MemBounded s.mem) (o : RecordOutcome) : NodeBounded (s.completeMutes o) := by
  refine ⟨?_, mem⟩
  unfold State.completeMutes
  generalize s.records.awaitingMute = mutes
  simp only [State.withRecords_records]
  generalize { s.records with awaitingMute := [] } = r at emptied
  induction mutes generalizing r with
  | nil => exact emptied
  | cons m mutes ih => exact ih _ (emptied.complete _ _ _ _ _ _)

/-! ### The operations of the node -/

section
variable {s : State} (h : NodeBounded s)
include h

/-- A change of the record engine that keeps its bounds keeps them all. -/
theorem NodeBounded.withRecords {r : Records} (hr : RecordsBounded r) : NodeBounded (s.withRecords r) :=
  ⟨hr, h.2⟩

/-- A change of the controller that keeps its bounds keeps them all. -/
theorem NodeBounded.withMem {m : MemController} (hm : MemBounded m) : NodeBounded (s.withMem m) :=
  ⟨h.1, hm⟩

theorem NodeBounded.records_bounded : RecordsBounded s.records := h.1

theorem NodeBounded.mem_bounded : MemBounded s.mem := h.2

theorem NodeBounded.queueNotice (n : Notice) : NodeBounded (s.queueNotice n) :=
  h.withRecords (h.records_bounded.queueNotice n)

theorem NodeBounded.queueNotices (ns : List Notice) : NodeBounded (s.queueNotices ns) :=
  h.withRecords (h.records_bounded.queueNotices ns)

theorem NodeBounded.complete (tag : Half) (op : Op) (notify : Bool) (o : RecordOutcome) (c : Counts) :
    NodeBounded (s.complete tag op notify o c) := h.withRecords (h.records_bounded.complete _ tag op notify o c)

theorem NodeBounded.popTable : NodeBounded s.popTable := h.withRecords h.records_bounded.popTable

theorem NodeBounded.popLive : NodeBounded s.popLive := h.withRecords h.records_bounded.popLive

theorem NodeBounded.completeTable (r : Record) (o : RecordOutcome) (c : Counts) :
    NodeBounded (s.completeTable r o c) := h.popTable.complete _ _ _ _ _

theorem NodeBounded.completeLive (r : Record) (o : RecordOutcome) (c : Counts) :
    NodeBounded (s.completeLive r o c) := h.popLive.complete _ _ _ _ _

/-- R163: a record joins its queue only where it holds fewer than two. -/
theorem NodeBounded.enqueue (r : Record) : NodeBounded (s.enqueue r) := by
  have b := h.records_bounded
  unfold State.enqueue
  split
  · exact h.withRecords ⟨b.notices, b.live, b.table, b.awaitingMute, b.elsewhere⟩
  · split
    · split
      next room => exact h.withRecords ⟨b.notices, b.live, by simp; omega, b.awaitingMute, b.elsewhere⟩
      next => exact h.complete _ _ _ _ _
    · split
      next room => exact h.withRecords ⟨b.notices, by simp; omega, b.table, b.awaitingMute, b.elsewhere⟩
      next => exact h.complete _ _ _ _ _

end

/-! ### The effects of the commands -/

section
variable {s : State} (h : NodeBounded s)
include h

theorem NodeBounded.advanceMem : NodeBounded s.advanceMem :=
  h.withMem ⟨by simpa using h.mem_bounded.bursts, by simpa using h.mem_bounded.owed⟩

/-- An operation that changes neither the record engine nor the burst queue nor the refreshes owed keeps the bounds. -/
theorem NodeBounded.congr {t : State} (records : t.records = s.records) (mem : t.mem = s.mem) : NodeBounded t := by
  rw [NodeBounded, records, mem]
  exact h

/-- R111, R170: a record engine that differs by queued notices alone is within the bounds. -/
theorem NodeBounded.records_queued {q : Records} {ns : List Notice} (same : SameButNotices s.records q)
    (queued : Queues s.records ns q) : RecordsBounded q := by
  refine h.records_bounded.sameButNotices same ?_
  rw [queued.1]
  exact (h.records_bounded.queueNotices ns).notices

theorem NodeBounded.placeNotice (f : Frame) : NodeBounded (s.placeNotice f) := by
  refine State.placeNotice_phases h (fun _ _ h => h) fun s n rest notices h => h.withRecords ?_
  have b := h.records_bounded
  have full := b.notices
  rw [notices, List.length_cons] at full
  exact ⟨Nat.le_of_succ_le full, b.live, b.table, b.awaitingMute, b.elsewhere⟩

theorem NodeBounded.takePosition (f : Option Frame) (bad : Bool) : NodeBounded (s.takePosition f bad) := by
  refine State.takePosition_phases h (fun _ _ h => h) (fun _ _ h => h)
    (fun _ _ h => h) fun s b h => ?_
  refine State.takeCell_phases h (fun _ n h => h.queueNotice n) (fun s a h => h.withRecords ?_) fun _ r h => h.enqueue r
  have b := h.records_bounded
  exact ⟨b.notices, b.live, b.table, b.awaitingMute, b.elsewhere⟩

theorem NodeBounded.loseLink : NodeBounded s.loseLink := by
  refine NodeBounded.advanceMem (h.congr ?_ ?_) <;> simp

theorem NodeBounded.relock (f : Frame) : NodeBounded (s.relock f) :=
  State.relock_phases h (fun _ _ h => h) (fun _ _ h => h) (fun _ _ _ h => h)
    (fun _ n h => h.queueNotice n) (fun _ h => h) (fun _ f h => h.placeNotice f)
    fun _ f bad h => h.takePosition f bad

theorem NodeBounded.swapAtBoundary (served : List (Fin 4)) (n : Block) : NodeBounded (s.swapAtBoundary served n).1 := by
  have fade : NodeBounded s.fadeCheck := h.congr (by simp) (by simp)
  unfold State.swapAtBoundary
  split
  · exact fade
  · split
    next w o due =>
      refine NodeBounded.queueNotice (NodeBounded.complete (NodeBounded.popTable ?_) _ _ _ _ _) _
      by_cases fading : s.store.fade = true
      · exact h.congr (by simp [fading]) (by simp [fading])
      · exact h.congr (by simp [fading]) (by simp [fading])
    · exact fade

/-- R89: the second boundary of a drain empties the awaiting-mute list as it ends MUTING. -/
theorem NodeBounded.drainAtBoundary : NodeBounded s.drainAtBoundary := by
  have b := h.records_bounded
  unfold State.drainAtBoundary
  split
  next k node drain =>
    split
    · refine nodeBounded_completeMutes ?_ ?_ _
      · exact ⟨b.notices, b.live, b.table, Nat.zero_le _, fun _ => rfl⟩
      · exact h.mem_bounded
    · exact h.withRecords ⟨b.notices, b.live, b.table, b.awaitingMute, b.elsewhere⟩
  · exact h

theorem NodeBounded.muteCheck : NodeBounded s.muteCheck := by
  have b := h.records_bounded
  unfold State.muteCheck
  split
  · exact h.withRecords ⟨b.notices, b.live, b.table, b.awaitingMute, b.elsewhere⟩
  · exact h

theorem NodeBounded.boundary (b n : Block) (x : Bool) : NodeBounded (s.boundary b n x) := by
  apply State.boundary_phases h
  case renumber =>
    intro s b n h
    exact NodeBounded.queueNotice (h.congr (by simp) (by simp)) _
  case step =>
    intro s n h
    exact (h.withRecords (h.records_queued (s.stepGenerators_records n) (s.stepGenerators_queues n))).congr rfl (by simp)
  case judge => exact fun s served n h => h.swapAtBoundary served n
  case close =>
    intro s swapped h
    exact (h.withRecords (h.records_queued (s.closePass_rest swapped).1 (s.closePass_queues swapped))).congr rfl (by simp)
  case drain => exact fun s h => h.drainAtBoundary
  case start =>
    intro s b h
    exact NodeBounded.muteCheck (h.congr (by simp) (by simp))
  case advance => exact fun s h => h.advanceMem
  case turn => exact fun s n h => h
  case exchange => exact fun s h => h
  case copy => exact fun s h => h
  case silence => exact fun s h => h
  case noStart => exact fun s n h => h
  case reap => exact fun s h => h

theorem NodeBounded.arrival (f : Frame) (g : Bool) : NodeBounded (s.arrival f g) :=
  State.arrival_phases h (fun _ _ h => h) (fun _ _ h => h)
    (fun _ _ h => (h.queueNotices _)) (fun _ f h => h.relock f) (fun _ b n x h => h.boundary b n x)
    (fun _ f h => h.placeNotice f) (fun _ f bad h => h.takePosition f bad) fun _ h => h.loseLink

theorem NodeBounded.gapExpiry : NodeBounded s.gapExpiry :=
  State.gapExpiry_phases h (fun _ _ h => h) (fun _ h => h.loseLink) fun _ f bad h => h.takePosition f bad

/-- R132: a request is accepted only where the queue holds fewer than 16. -/
theorem NodeBounded.requestBurst : NodeBounded s.requestBurst := by
  unfold State.requestBurst
  split
  next accepts =>
    split
    next q t burst =>
      refine NodeBounded.advanceMem ((h.withMem (m := { s.mem with queue := s.mem.queue ++ [q] }) ⟨?_, h.mem_bounded.owed⟩))
      have room := (s.mem.accepts_iff.1 accepts).2
      simpa using room
    · exact h
  · exact h

theorem NodeBounded.endBurst : NodeBounded s.endBurst := by
  unfold State.endBurst
  split
  next q rest service queue =>
    have bursts := h.mem_bounded.bursts
    rw [queue, List.length_cons] at bursts
    refine NodeBounded.advanceMem ((h.withMem (m := { s.mem with queue := rest, service := .none, periods := 0 }.openFor q)
      ⟨Nat.le_of_succ_le bursts, h.mem_bounded.owed⟩).congr ?_ ?_) <;> simp
  · exact h

theorem NodeBounded.completeFinishing : NodeBounded s.completeFinishing := by
  unfold State.completeFinishing
  split
  next p state pass =>
    refine NodeBounded.advanceMem ((h.withRecords (h.records_queued (s.finishPass_records false p none)
      (s.finishPass_queues p none false))).congr ?_ ?_) <;> simp [State.finishUncut]
  · exact h

/-- R127, R128: the MEMORY-SETUP that began a sequence leaves the table-class queue. -/
theorem NodeBounded.completeSetup : NodeBounded s.completeSetup := by
  have b := h.records_bounded
  unfold State.completeSetup
  split
  · exact NodeBounded.completeTable (h.withRecords (r := { s.records with setup := none })
      ⟨b.notices, b.live, b.table, b.awaitingMute, b.elsewhere⟩) _ _ _
  · exact h

/-- R88: a MUTE joins the list in RUN, where it is empty, and in MUTING while it holds fewer than four. -/
theorem NodeBounded.mute (r : Record) : NodeBounded (s.mute r) := by
  have b := h.records_bounded
  have pop := b.popLive
  unfold State.mute
  split
  next run =>
    have empty : s.records.awaitingMute = [] := b.elsewhere (by simp [run])
    refine NodeBounded.muteCheck ((h.withRecords (r := { s.records with
      live := s.records.live.drop 1, awaitingMute := s.records.awaitingMute ++ [⟨r.tag, r.notify⟩], node := .muting })
      ⟨b.notices, pop.live, b.table, by simp [empty], by simp⟩))
  next muting =>
    split
    next room =>
      exact h.withRecords (r := { s.records with
        live := s.records.live.drop 1, awaitingMute := s.records.awaitingMute ++ [⟨r.tag, r.notify⟩] })
        ⟨b.notices, pop.live, b.table, by simp; omega, by simp [muting]⟩
    · exact h.completeLive _ _ _
  · exact h.completeLive _ _ _
  · exact h.completeLive _ _ _

/-- R91: a RUN empties the list in MUTING; elsewhere it is empty. -/
theorem NodeBounded.runNode (r : Record) : NodeBounded (s.runNode r) := by
  have b := h.records_bounded
  unfold State.runNode
  split
  next muted =>
    have empty : s.records.awaitingMute = [] := b.elsewhere (by simp [muted])
    exact NodeBounded.completeLive ((h.withRecords (r := { s.records with node := .run, drain := none })
      ⟨b.notices, b.live, b.table, b.awaitingMute, fun _ => empty⟩)) _ _ _
  next =>
    refine NodeBounded.completeLive (nodeBounded_completeMutes ?_ ?_ _) _ _ _
    · exact ⟨b.notices, b.live, b.table, Nat.zero_le _, fun _ => rfl⟩
    · exact h.mem_bounded
  · exact h.completeLive _ _ _
  · exact h.completeLive _ _ _

theorem NodeBounded.quiesce (r : Record) : NodeBounded (s.quiesce r) := by
  have b := h.records_bounded
  unfold State.quiesce
  split
  next muted =>
    refine NodeBounded.advanceMem (NodeBounded.completeLive ⟨?_, ?_⟩ _ _ _)
    · exact ⟨b.notices, b.live, b.table, b.awaitingMute, fun _ => b.elsewhere (by simp [muted])⟩
    · exact ⟨h.mem_bounded.bursts, h.mem_bounded.owed⟩
  all_goals exact h.completeLive _ _ _

theorem NodeBounded.wake (r : Record) : NodeBounded (s.wake r) := by
  have b := h.records_bounded
  unfold State.wake
  split
  next quiescent =>
    refine NodeBounded.advanceMem (NodeBounded.completeLive ⟨?_, ?_, ?_⟩ _ _ _)
    · exact ⟨b.notices, b.live, b.table, b.awaitingMute, fun _ => b.elsewhere (by simp [quiescent])⟩
    · simpa using h.mem_bounded.bursts
    · simpa using h.mem_bounded.owed
  all_goals exact h.completeLive _ _ _

theorem NodeBounded.statusRead (r : Record) : NodeBounded (s.statusRead r) := by
  unfold State.statusRead
  split
  · exact h
  · refine State.liveList_keeps ?_ (h.completeLive _ _ _)
    generalize s.statusBody = body
    have answered := h.queueNotice (.status r.tag body)
    have b := answered.records_bounded
    have cleared : NodeBounded ((s.queueNotice (.status r.tag body)).withRecords
        { (s.queueNotice (.status r.tag body)).records with overflow := false }).popLive :=
      NodeBounded.popLive (answered.withRecords ⟨b.notices, b.live, b.table, b.awaitingMute, b.elsewhere⟩)
    dsimp only
    split
    · exact cleared
    · exact cleared

theorem NodeBounded.restart : NodeBounded s.restart := by
  have b := h.records_bounded
  unfold State.restart
  split
  · exact h
  next r rest restarts =>
    have taken := h.withRecords (r := { s.records with restarts := rest })
      ⟨b.notices, b.live, b.table, b.awaitingMute, b.elsewhere⟩
    dsimp only
    split
    · refine NodeBounded.advanceMem (NodeBounded.queueNotice ⟨?_, ?_⟩ _)
      · exact ⟨Nat.zero_le _, Nat.zero_le _, Nat.zero_le _, Nat.zero_le _, fun _ => rfl⟩
      · exact ⟨by simpa [State.restartBlocks] using h.mem_bounded.bursts, by simpa [State.restartBlocks] using h.mem_bounded.owed⟩
    · exact taken.complete _ _ _ _ _

theorem NodeBounded.memorySetup (r : Record) : NodeBounded (s.memorySetup r) := by
  have b := h.records_bounded
  have started : ∀ c, RecordsBounded { s.records with setup := some c } := fun c =>
    ⟨b.notices, b.live, b.table, b.awaitingMute, b.elsewhere⟩
  have apply : ∀ count i l, NodeBounded (s.applySetup r count i l) := by
    intro count i l
    have stored : NodeBounded (s.withMem { s.mem with
        refreshCount := clampRefreshCount count, interval := i, latency := l }) :=
      h.withMem ⟨h.mem_bounded.bursts, h.mem_bounded.owed⟩
    unfold State.applySetup
    dsimp only
    split
    · exact (h.withRecords (started _)).withMem ⟨h.mem_bounded.bursts, h.mem_bounded.owed⟩
    · exact NodeBounded.advanceMem ((h.withRecords (started _)).withMem ⟨h.mem_bounded.bursts, h.mem_bounded.owed⟩)
    · exact stored.completeTable _ _ _
    · exact stored.completeTable _ _ _
    · exact stored.completeTable _ _ _
    all_goals exact h
  unfold State.memorySetup
  split
  · exact h
  · refine State.tableList_keeps ?_ (h.completeTable _ _ _)
    split
    · exact apply _ _ _
    · exact apply _ _ _
    · exact h.completeTable _ _ _

end

/-! ### The entries of a guard record -/

theorem NodeBounded.releaseA {s : State} (h : NodeBounded s) (tag : Half) (k : Fin 4) (n : Nat) :
    NodeBounded (s.releaseA tag k n) := by
  unfold State.releaseA
  dsimp only
  split
  · exact (h.queueNotice _)
  · exact h

theorem NodeBounded.releaseB {s : State} (h : NodeBounded s) (tag : Half) (k : Fin 4) :
    NodeBounded (s.releaseB tag k) := by
  unfold State.releaseB
  dsimp only
  split
  · exact (h.queueNotice _)
  · exact h

theorem NodeBounded.guardSetEntry (tag : Half) (s : State) (e : List Byte) (h : NodeBounded s) :
    NodeBounded (guardSetEntry tag s e).1 := by
  unfold Machine.guardSetEntry
  split
  · unfold State.setA
    dsimp only
    split
    · exact h
    · refine NodeBounded.releaseA ?_ _ _ _
      exact h
  · unfold State.setB
    dsimp only
    split
    · exact h
    · refine NodeBounded.releaseB ?_ _ _
      exact h
  · exact h

theorem NodeBounded.guardReleaseEntry (tag : Half) (s : State) (e : List Byte) (h : NodeBounded s) :
    NodeBounded (guardReleaseEntry tag s e).1 := by
  unfold Machine.guardReleaseEntry
  split
  next k a b group release =>
    have released : NodeBounded (if a then s.releaseA tag k (s.out.group k.val).count else s) := by
      split
      · exact h.releaseA _ _ _
      · exact h
    dsimp only
    split
    · exact released.releaseB _ _
    · exact released
  · exact h

/-! ### The commands together -/

/-- The power-on values are within the bounds. -/
theorem queuesBounded_of_reset {s : State} (records : s.records = Records.reset) (mem : s.mem = MemController.reset) :
    NodeBounded s := by
  rw [NodeBounded, records, mem]
  exact ⟨⟨by decide, by decide, by decide, by decide, fun _ => rfl⟩, by decide, by decide⟩

/-- Settles O53: each effect either leaves the queues, empties them, takes a head, or adds under the test of its bound. -/
theorem stepKeepsQueuesBounded : Obligations.StepKeepsQueuesBounded := by
  intro s t bounded steps
  refine queuesBounded_iff.2 (step_keeps (P := NodeBounded) (fun c s t hs executes => ?_) (fun s q hs => hs)
    (queuesBounded_iff.1 bounded) steps)
  have live : ∀ r o c, NodeBounded (s.completeLive r o c) := hs.completeLive
  have table : ∀ r o c, NodeBounded (s.completeTable r o c) := hs.completeTable
  apply exec_keeps executes hs
  case power => exact fun p => queuesBounded_of_reset rfl rfl
  case assert => exact queuesBounded_of_reset rfl rfl
  case release => exact fun p => hs
  case arrival => exact hs.arrival
  case gap => exact hs.gapExpiry
  case request => exact hs.requestBurst
  case burst => exact hs.endBurst
  case finishing => exact hs.completeFinishing
  case due =>
    unfold State.refreshExpiry
    split
    · exact NodeBounded.advanceMem (hs.withMem
        ⟨by simpa using hs.mem_bounded.bursts, MemController.refreshDue_owed hs.mem_bounded.owed⟩)
    all_goals exact hs
  case refresh =>
    unfold State.endRefresh
    split
    · exact NodeBounded.advanceMem (hs.withMem
        ⟨by simpa using hs.mem_bounded.bursts, MemController.refreshEnd_owed hs.mem_bounded.owed⟩)
    · exact hs
  case initialized =>
    unfold State.endInitialization
    split
    · exact NodeBounded.advanceMem ((NodeBounded.completeSetup (hs.withMem ⟨hs.mem_bounded.bursts, by simp⟩)))
    · exact hs
  case modeSet =>
    unfold State.endModeSet
    split
    · exact NodeBounded.advanceMem (NodeBounded.completeSetup (hs.withMem ⟨hs.mem_bounded.bursts, hs.mem_bounded.owed⟩))
    · exact hs
  case entering =>
    unfold State.endEntering
    split
    · exact hs.withMem ⟨hs.mem_bounded.bursts, by simp [MemController.enterSelfRefresh]⟩
    · exact hs
  case leaving =>
    unfold State.endLeaving
    split
    · exact NodeBounded.advanceMem (hs.withMem ⟨hs.mem_bounded.bursts, by simp⟩)
    · exact hs
  case tapWrite => exact fun _ r => State.tableList_keeps ((table _ _ _)) (table _ _ _)
  case tapClear => exact fun _ r => State.tableList_keeps ((table _ _ _)) (table _ _ _)
  case copyActive => exact fun _ r => State.tableList_keeps ((table _ _ _)) (table _ _ _)
  case swap =>
    intro r
    unfold State.swapRecord
    split
    · exact hs
    · refine State.tableList_keeps ?_ (table _ _ _)
      split
      · exact hs
      · exact table _ _ _
  case lineMap => exact fun r => State.tableList_keeps ((table _ _ _)) (table _ _ _)
  case outputMap => exact fun r => State.tableList_keeps ((table _ _ _)) (table _ _ _)
  case memorySetup => exact hs.memorySetup
  case tapGain =>
    exact fun r => State.liveList_keeps (NodeBounded.completeLive (hs.congr (by simp) (by simp)) _ _ _) (live _ _ _)
  case masterGain =>
    exact fun r => State.liveList_keeps (NodeBounded.completeLive (hs.congr (by simp) (by simp)) _ _ _) (live _ _ _)
  case override =>
    intro r
    refine State.liveList_keeps ?_ (live _ _ _)
    split
    · exact live _ _ _
    · exact NodeBounded.completeLive (hs.congr (by simp) (by simp)) _ _ _
  case guardSet =>
    exact fun r => State.liveList_keeps (NodeBounded.completeLive
      (takeEntries_inv (NodeBounded.guardSetEntry r.tag) _ _ _ _ hs) _ _ _) (live _ _ _)
  case guardRelease =>
    exact fun r => State.liveList_keeps (NodeBounded.completeLive
      (takeEntries_inv (NodeBounded.guardReleaseEntry r.tag) _ _ _ _ hs) _ _ _) (live _ _ _)
  case generatorSet => exact fun r => State.liveList_keeps ((live _ _ _)) (live _ _ _)
  case generatorLoad => exact fun r => State.liveList_keeps ((live _ _ _)) (live _ _ _)
  case rampSet => exact fun r => State.liveList_keeps ((live _ _ _)) (live _ _ _)
  case cancelSwap =>
    intro r
    refine State.liveList_keeps ?_ (live _ _ _)
    split
    · exact live _ _ _
    · exact NodeBounded.completeLive (NodeBounded.complete (hs.popTable) _ _ _ _ _) _ _ _
  case malformed => exact fun r => live _ _ _
  case mute => exact hs.mute
  case run => exact hs.runNode
  case quiesce => exact hs.quiesce
  case wake => exact hs.wake
  case statusRead => exact hs.statusRead
  case restart => exact hs.restart

end Sys2Proof.Safety
end

section
/-! PROOF. The execution of a command on a node whose reset pin is released, and of a record at the head of its queue. -/

namespace Sys2Proof.Machine

open Sys2Proof.Safety

/-! ### The reset pin -/

/-- R178: with the reset pin released a command has its effect. -/
theorem State.running_of_released {s : State} (released : s.resetPin = false) (f : State → State) :
    s.running f = .next (f s) := by
  simp [State.running, released]

/-- R178: a command that would change nothing changes nothing with the reset pin asserted either. -/
theorem State.running_of_unchanged {s : State} {f : State → State} (unchanged : f s = s) : s.running f = .next s := by
  simp [State.running, unchanged]

/-! ### The head of the table-class queue -/

/-- R163, R164: the record at the head of the table-class queue has its effect. -/
theorem State.atTableHead_of_head {s : State} {op : Op} {r : Record} (f : Record → State) (h : AtTable s op r) :
    s.atTableHead op f = f r := by
  obtain ⟨_, head, isOp⟩ := h
  obtain ⟨rest, table⟩ := List.head?_eq_some_iff.mp head
  simp [State.atTableHead, table, isOp]

/-- R163, R164: with the reset pin released, the record at the head of the table-class queue has its effect. -/
theorem running_atTableHead {s : State} {op : Op} {r : Record} (f : State → Record → State) (h : AtTable s op r) :
    s.running (fun s => s.atTableHead op (f s)) = .next (f s r) := by
  rw [State.running_of_released h.1, State.atTableHead_of_head (f s) h]

/-- R163, R169: the completion of a table-class record changes the record engine alone. -/
theorem State.completeTable_eq (s : State) (r : Record) (o : RecordOutcome) (c : Counts) :
    s.completeTable r o c = { s with records := tableDone s r o c } := rfl

/-! ### The length of a body -/

@[simp] theorem State.tableList_true (s : State) (r : Record) (f : State) : s.tableList r true f = f := rfl

@[simp] theorem State.tableList_false (s : State) (r : Record) (f : State) :
    s.tableList r false f = { s with records := tableDone s r .malformed {} } := rfl

@[simp] theorem State.liveList_false (s : State) (r : Record) (f : State) :
    s.liveList r false f = { s with records := liveDone s r .malformed {} } := rfl

/-- R165: the check of a list body, in the words of Safety. -/
theorem isList_iff {n : Nat} {r : Record} : isList n r.body = true ↔ IsList n r := by
  simp [isList, IsList, and_comm]

theorem isList_of {n : Nat} {r : Record} (h : IsList n r) : isList n r.body = true := isList_iff.2 h

theorem isList_of_not {n : Nat} {r : Record} (h : ¬IsList n r) : isList n r.body = false :=
  Bool.eq_false_iff.2 fun k => h (isList_iff.1 k)

/-! ### STATE records -/

/-- R88, R91, R174, R175: a STATE record of one of the four requests has the effect of its own request alone. -/
theorem running_stateRecord {s : State} {r : Record} {request : Nat} (f : State → Record → State)
    (h : AtLive s .state r) (length : r.body.length = 1) (code : byteAt r.body 0 = request) (valid : request < 4) :
    s.running (fun s => s.stateRecord request (f s)) = .next (f s r) := by
  have executes := running_atLiveHead (fun s r => s.liveList r (r.body.length == 1 && decide (byteAt r.body 0 < 4))
    (if byteAt r.body 0 = request then f s r else s)) h
  refine executes.trans ?_
  simp [length, code, valid]

/-- R165, log 20: any of the four commands refuses a STATE record of a wrong length or of an unknown request. -/
theorem running_stateRecord_malformed {s : State} {r : Record} {request : Nat} (f : State → Record → State)
    (h : AtLive s .state r) (wrong : r.body.length ≠ 1 ∨ 4 ≤ byteAt r.body 0) :
    s.running (fun s => s.stateRecord request (f s)) = .next { s with records := liveDone s r .malformed {} } := by
  have executes := running_atLiveHead (fun s r => s.liveList r (r.body.length == 1 && decide (byteAt r.body 0 < 4))
    (if byteAt r.body 0 = request then f s r else s)) h
  have refused : (r.body.length == 1 && decide (byteAt r.body 0 < 4)) = false := by
    rcases wrong with length | code
    · simp [length]
    · simp [code]
  refine executes.trans ?_
  simp only [refused, State.liveList_false]

/-! ### The record engine but for its notices -/

/-- What queueing notices leaves of the record engine, as an equation. -/
theorem SameButNotices.eq {r q : Records} (same : SameButNotices r q) :
    q = { r with notices := q.notices, overflow := q.overflow } := by
  obtain ⟨h1, h2, h3, h4, h5, h6, h7, h8⟩ := same
  cases q
  simp_all

end Sys2Proof.Machine
end

section
/-! PROOF. The entries of GUARD-SET and GUARD-RELEASE (R113, R117 to R119). -/

namespace Sys2Proof.Machine

open Sys2Proof.Safety

/-! ### A group written -/

theorem Output.group_withGroup {o : Output} (four : o.groups.length = 4) (k : Fin 4) (g : GuardGroup) :
    (o.withGroup k.val g).group k.val = g := by
  simp [Output.group, Output.withGroup, List.getD_eq_getElem?_getD, four]

/-! ### Release -/

/-- R113, R117, R118: what the release of source A leaves. -/
theorem State.releaseA_eq (s : State) (tag : Half) (k : Fin 4) (count : Nat) : s.releaseA tag k count = { s with
    out := { s.out with
      groups := s.out.groups.set k.val { s.out.group k.val with aTripped := false, count := 0 }
      insert := { s.out.insert with verdicts := s.out.insert.verdicts.set k.val false }
      filling := { s.out.filling with verdicts := s.out.filling.verdicts.set k.val false } }
    records := if (s.out.group k.val).aTripped then
      s.records.queueNotice (.guard tag k .a false s.noticeBlock 0 count) else s.records } := by
  unfold State.releaseA
  dsimp only
  split <;> rfl

/-- R117, R118: what the release of source B leaves. -/
theorem State.releaseB_eq (s : State) (tag : Half) (k : Fin 4) : s.releaseB tag k = { s with
    out := { s.out with groups := s.out.groups.set k.val { s.out.group k.val with bTripped := false } }
    records := if (s.out.group k.val).bTripped then
      s.records.queueNotice (.guard tag k .b false s.noticeBlock 0 0) else s.records } := by
  unfold State.releaseB
  dsimp only
  split <;> rfl

/-! ### Setting -/

/-- R117: how a valid entry of source A counts. -/
def setAMark (threshold limit : Nat) : Mark :=
  { written := true, clamped := clampThreshold threshold != threshold || limit == 0 }

theorem setAMark_clamped (threshold limit : Nat) :
    (setAMark threshold limit).clamped = true ↔ threshold < 1 ∨ 8388608 < threshold ∨ limit = 0 := by
  simp [setAMark, clampThreshold]
  omega

/-- R117: an entry that enables source A replaces its settings, with the detector count 0. -/
theorem State.setA_enabled (s : State) (tag : Half) (k : Fin 4) (m : GuardMode) (a : GuardAction) (threshold limit : Nat) :
    s.setA tag k true m a threshold limit = ({ s with out := { s.out with
      groups := s.out.groups.set k.val { s.out.group k.val with
        aEnable := true, aMode := m, aAction := a, threshold := max 1 (min 8388608 threshold), limit := max 1 limit,
        count := 0 } } }, setAMark threshold limit) := rfl

/-- R117: an entry that disables source A replaces its settings and releases it, with the count before the entry. -/
theorem State.setA_disabled {s : State} (four : s.out.groups.length = 4) (tag : Half) (k : Fin 4) (m : GuardMode)
    (a : GuardAction) (threshold limit : Nat) :
    s.setA tag k false m a threshold limit = ({ s with
      out := { s.out with
        groups := s.out.groups.set k.val { s.out.group k.val with
          aEnable := false, aMode := m, aAction := a, threshold := max 1 (min 8388608 threshold), limit := max 1 limit,
          count := 0, aTripped := false }
        insert := { s.out.insert with verdicts := s.out.insert.verdicts.set k.val false }
        filling := { s.out.filling with verdicts := s.out.filling.verdicts.set k.val false } }
      records := if (s.out.group k.val).aTripped then
        s.records.queueNotice (.guard tag k .a false s.noticeBlock 0 (s.out.group k.val).count) else s.records },
      setAMark threshold limit) := by
  unfold State.setA
  dsimp only
  rw [if_neg (by decide), State.releaseA_eq]
  simp only [State.withOut_out, Output.group_withGroup four]
  simp only [Output.withGroup, List.set_set]
  rfl

/-- R117: an entry that enables source B replaces its settings. -/
theorem State.setB_enabled (s : State) (tag : Half) (k : Fin 4) (m : GuardMode) (a : GuardAction) :
    s.setB tag k true m a = ({ s with out := { s.out with
      groups := s.out.groups.set k.val { s.out.group k.val with bEnable := true, bMode := m, bAction := a } } },
      { written := true }) := rfl

/-- R117: an entry that disables source B replaces its settings and releases it. -/
theorem State.setB_disabled {s : State} (four : s.out.groups.length = 4) (tag : Half) (k : Fin 4) (m : GuardMode)
    (a : GuardAction) :
    s.setB tag k false m a = ({ s with
      out := { s.out with groups := s.out.groups.set k.val { s.out.group k.val with
        bEnable := false, bMode := m, bAction := a, bTripped := false } }
      records := if (s.out.group k.val).bTripped then
        s.records.queueNotice (.guard tag k .b false s.noticeBlock 0 0) else s.records }, { written := true }) := by
  unfold State.setB
  dsimp only
  rw [if_neg (by decide), State.releaseB_eq]
  simp only [State.withOut_out, Output.group_withGroup four]
  simp only [Output.withGroup, List.set_set]
  rfl

/-! ### The codes of an entry -/

theorem asFin_val {n : Nat} (k : Fin n) : asFin n k.val = some k := dif_pos k.isLt

theorem asFin_of_le {n k : Nat} (h : n ≤ k) : asFin n k = none := dif_neg (Nat.not_lt.2 h)

theorem guardSourceOf_of_lt : ∀ {n : Nat}, 1 < n → guardSourceOf n = none
  | _ + 2, _ => rfl

theorem guardModeOf_of_lt : ∀ {n : Nat}, 1 < n → guardModeOf n = none
  | _ + 2, _ => rfl

theorem guardActionOf_of_lt {n : Nat} (h : 4 < n) : guardActionOf n = none := by
  simp only [guardActionOf, if_neg (by omega : n ≠ 0), if_neg (by omega : ¬n ≤ 4)]

theorem guardActionOf_attenuate {n : Nat} (low : 1 ≤ n) (high : n ≤ 4) : guardActionOf n = some (.attenuate n) := by
  simp only [guardActionOf, if_neg (by omega : n ≠ 0), if_pos high]

theorem releaseOf_of_lt : ∀ {n : Nat}, 2 < n → releaseOf n = none
  | _ + 3, _ => rfl

/-- R117: an entry with a code out of range is rejected. -/
theorem guardSetEntry_rejected (tag : Half) (s : State) {e : List Byte}
    (h : 3 < byteAt e 0 ∨ 1 < byteAt e 1 ∨ 1 < byteAt e 3 ∨ 4 < byteAt e 4) :
    guardSetEntry tag s e = (s, { rejected := true }) := by
  unfold guardSetEntry
  rcases h with group | source | mode | action
  · simp [asFin_of_le group]
  · simp [guardSourceOf_of_lt source]
  · simp [guardModeOf_of_lt mode]
  · simp [guardActionOf_of_lt action]

/-- R118: an entry with a code out of range is rejected. -/
theorem guardReleaseEntry_rejected (tag : Half) (s : State) {e : List Byte} (h : 3 < byteAt e 0 ∨ 2 < byteAt e 1) :
    guardReleaseEntry tag s e = (s, { rejected := true }) := by
  unfold guardReleaseEntry
  rcases h with group | source
  · simp [asFin_of_le group]
  · simp [releaseOf_of_lt source]

/-- R117: a valid entry sets the source it names. -/
theorem guardSetEntry_valid (tag : Half) (s : State) {e : List Byte} {k : Fin 4} {m : GuardMode} {a : GuardAction}
    (group : byteAt e 0 = k.val) (mode : guardModeOf (byteAt e 3) = some m)
    (action : guardActionOf (byteAt e 4) = some a) :
    (byteAt e 1 = 0 → guardSetEntry tag s e = s.setA tag k (byteAt e 2 != 0) m a (field3 e 5) (byteAt e 8)) ∧
    (byteAt e 1 = 1 → guardSetEntry tag s e = s.setB tag k (byteAt e 2 != 0) m a) := by
  refine ⟨fun source => ?_, fun source => ?_⟩ <;>
    simp [guardSetEntry, group, asFin_val, mode, action, source, guardSourceOf]

/-- R118: a valid entry releases the source it names, or A and then B. -/
theorem guardReleaseEntry_valid (tag : Half) (s : State) {e : List Byte} {k : Fin 4} (group : byteAt e 0 = k.val) :
    (byteAt e 1 = 0 →
      guardReleaseEntry tag s e = (s.releaseA tag k (s.out.group k.val).count, { written := true })) ∧
    (byteAt e 1 = 1 → guardReleaseEntry tag s e = (s.releaseB tag k, { written := true })) ∧
    (byteAt e 1 = 2 → guardReleaseEntry tag s e =
      ((s.releaseA tag k (s.out.group k.val).count).releaseB tag k, { written := true })) := by
  refine ⟨fun source => ?_, fun source => ?_, fun source => ?_⟩ <;>
    simp [guardReleaseEntry, group, asFin_val, source, releaseOf]

/-! ### The notices of the entries -/

theorem State.releaseA_records {r : Records} {s : State} (h : SameButNotices r s.records) (tag : Half) (k : Fin 4)
    (count : Nat) : SameButNotices r (s.releaseA tag k count).records := by
  rw [State.releaseA_eq]
  dsimp only
  split
  · exact h.trans (sameButNotices_queueNotice _ _)
  · exact h

theorem State.releaseB_records {r : Records} {s : State} (h : SameButNotices r s.records) (tag : Half) (k : Fin 4)
    : SameButNotices r (s.releaseB tag k).records := by
  rw [State.releaseB_eq]
  dsimp only
  split
  · exact h.trans (sameButNotices_queueNotice _ _)
  · exact h

/-- R117, R119: an entry of a GUARD-SET changes the notices of the record engine alone. -/
theorem guardSetEntry_records (tag : Half) (s : State) (e : List Byte) :
    SameButNotices s.records (guardSetEntry tag s e).1.records := by
  unfold guardSetEntry
  split
  · unfold State.setA
    dsimp only
    split
    · exact .refl _
    · refine State.releaseA_records ?_ tag _ _
      exact .refl _
  · unfold State.setB
    dsimp only
    split
    · exact .refl _
    · refine State.releaseB_records ?_ tag _
      exact .refl _
  · exact .refl _

/-- R118, R119: an entry of a GUARD-RELEASE changes the notices of the record engine alone. -/
theorem guardReleaseEntry_records (tag : Half) (s : State) (e : List Byte) :
    SameButNotices s.records (guardReleaseEntry tag s e).1.records := by
  unfold guardReleaseEntry
  split
  next k a b group release =>
    have released : SameButNotices s.records (if a then s.releaseA tag k (s.out.group k.val).count else s).records := by
      split
      · exact State.releaseA_records (.refl _) tag _ _
      · exact .refl _
    dsimp only
    split
    · exact State.releaseB_records released tag _
    · exact released
  · exact .refl _

/-- What an entry leaves of the record engine but for its notices, all the entries leave. -/
theorem takeEntries_records {f : State → List Byte → State × Mark}
    (h : ∀ s e, SameButNotices s.records (f s e).1.records) (es : List (List Byte)) (s : State) :
    SameButNotices s.records (takeEntries f es 0 s {}).1.records :=
  takeEntries_inv (P := fun t => SameButNotices s.records t.records) (fun t e k => k.trans (h t e)) es 0 s {} (.refl _)

/-! ### GUARD-SET and GUARD-RELEASE -/

/-- Settles O41: both records take their entries by the codes of each, and a source is set or released in one group. -/
theorem guardRecordsTakeTheirEntries : Obligations.GuardRecordsTakeTheirEntries := by
  refine ⟨⟨fun s r atHead list => ⟨?set, (takeEntries_records (guardSetEntry_records r.tag) _ s).eq⟩,
    fun s r atHead list => ⟨?release, (takeEntries_records (guardReleaseEntry_records r.tag) _ s).eq⟩,
    fun tag s e => ⟨guardSetEntry_rejected tag s, guardReleaseEntry_rejected tag s,
      fun k m a group mode action => guardSetEntry_valid tag s group mode action,
      fun k group => guardReleaseEntry_valid tag s group, rfl, rfl, rfl,
      fun n low high => guardActionOf_attenuate low high⟩⟩,
    fun tag s k m a threshold limit four _ _ => ⟨?setA, ?disableA, ?setB, ?disableB, ?releaseA, ?releaseB⟩⟩
  case set =>
    have executes : exec .guardSet s = .next (s.guardSet r) := running_atLiveHead State.guardSet atHead
    rw [executes, State.guardSet, isList_of list, State.liveList_true, State.completeLive_eq]
    simp
  case release =>
    have executes : exec .guardRelease s = .next (s.guardRelease r) := running_atLiveHead State.guardRelease atHead
    rw [executes, State.guardRelease, isList_of list, State.liveList_true, State.completeLive_eq]
    simp
  case setA => exact ⟨_, _, State.setA_enabled s tag k m a threshold limit, rfl, setAMark_clamped _ _, rfl, rfl⟩
  case disableA => exact ⟨_, _, State.setA_disabled four tag k m a threshold limit, rfl, setAMark_clamped _ _, rfl, rfl, rfl⟩
  case setB => exact ⟨_, State.setB_enabled s tag k m a, rfl, rfl⟩
  case disableB => exact ⟨_, State.setB_disabled four tag k m a, rfl, rfl, rfl⟩
  case releaseA => exact ⟨_, State.releaseA_eq s tag k _, rfl, rfl, rfl⟩
  case releaseB => exact ⟨_, State.releaseB_eq s tag k, rfl, rfl, rfl⟩

end Sys2Proof.Machine
end

section
/-! PROOF. Every step keeps the four generators and the four guard groups legal (R93, R97, R103, R105, R109, R117). -/

namespace Sys2Proof.Safety

open Machine

/-! ### One generator -/

theorem generatorLegal_reset : GeneratorLegal Generator.reset := by constructor <;> simp [Generator.reset]

/-- R95 to R98: a step keeps a generator legal; in TRIANGLE it turns where the counter meets an end. -/
theorem GeneratorLegal.step {g : Generator} (h : GeneratorLegal g) : GeneratorLegal g.step := by
  obtain ⟨period, pending, counter, value, post, postCount, straight, rising, falling⟩ := h
  unfold Generator.step
  split
  next off => exact ⟨period, pending, counter, value, post, postCount, straight, rising, falling⟩
  next ramp =>
    split
    · exact ⟨period, pending, by dsimp only; omega, value, post, postCount, straight, by simp [ramp], by simp [ramp]⟩
    · exact ⟨pending, pending, by simp, value, post, postCount, straight, by simp [ramp], by simp [ramp]⟩
  next single =>
    split
    · exact ⟨period, pending, by dsimp only; omega, value, post, postCount, straight, by simp [single], by simp [single]⟩
    · exact ⟨pending, pending, by simp, value, post, postCount, by simp, by simp, by simp⟩
  next triangle =>
    split
    next up =>
      have below := rising triangle up
      refine ⟨period, pending, below, value, post, postCount, by simp [triangle], ?_, by simp⟩
      intro _ stillUp
      have notEnd : g.counter + 1 ≠ g.period := fun atEnd => by simp [atEnd] at stillUp
      dsimp only
      omega
    next down =>
      split
      · exact ⟨pending, pending, by simp, value, post, postCount, by simp [triangle],
          fun _ _ => pending.1, by simp⟩
      next notZero =>
        refine ⟨period, pending, by dsimp only; omega, value, post, postCount, by simp [triangle], by simp [down], ?_⟩
        intro _ _
        dsimp only
        omega

/-- R101: a compare event advances the postscale count, which returns to 0 at the postscale. -/
theorem GeneratorLegal.stepped {g : Generator} (h : GeneratorLegal g) : GeneratorLegal g.stepped := by
  obtain ⟨period, pending, counter, value, post, postCount, straight, rising, falling⟩ := h.step
  unfold Generator.stepped
  split
  · refine ⟨period, pending, counter, value, post, ?_, straight, rising, falling⟩
    simp only [Generator.advance]
    split <;> omega
  · exact h.step

/-- R103, R104: a generator stays legal when a mode is written; RAMP and SINGLE run UP, and a counter at its period turns a
TRIANGLE. -/
theorem GeneratorLegal.changeMode {g : Generator} (h : GeneratorLegal g) (m : GenMode) : GeneratorLegal (g.changeMode m) := by
  obtain ⟨period, pending, counter, value, post, postCount, straight, rising, falling⟩ := h
  have toOff : GeneratorLegal { g with mode := .off } :=
    ⟨period, pending, counter, value, post, postCount, by simp, by simp, by simp⟩
  have started : GeneratorLegal { g with mode := m, period := g.pendingPeriod, counter := 0, dir := .up } :=
    ⟨pending, pending, by simp, value, post, postCount, by simp, fun _ _ => pending.1, by simp⟩
  have straightened : m ≠ .triangle → GeneratorLegal { g with mode := m, dir := .up } := fun other =>
    ⟨period, pending, counter, value, post, postCount, by simp, by simp [other], by simp⟩
  have bent : g.mode ≠ .triangle → GeneratorLegal { g with
      mode := .triangle, dir := if g.counter = g.period then .down else .up } := fun _ => by
    refine ⟨period, pending, counter, value, post, postCount, by simp, ?_, ?_⟩
    · intro _ up
      have notEnd : g.counter ≠ g.period := fun atEnd => by simp [atEnd] at up
      dsimp only
      omega
    · intro _ down
      have atEnd : g.counter = g.period := by
        by_contra notEnd
        simp [notEnd] at down
      dsimp only
      omega
  have same : g.mode = m → GeneratorLegal { g with mode := m } := fun e => by
    subst e
    exact ⟨period, pending, counter, value, post, postCount, straight, rising, falling⟩
  have exchanged : g.mode = .ramp ∨ g.mode = .single → m ≠ .triangle → GeneratorLegal { g with mode := m } :=
    fun e other => ⟨period, pending, counter, value, post, postCount, fun _ => straight e, by simp [other], by simp [other]⟩
  cases mode : g.mode <;> cases m
  all_goals simp only [Generator.changeMode, mode]
  case off.off => exact ⟨period, pending, counter, value, post, postCount, straight, rising, falling⟩
  case ramp.off | single.off | triangle.off => exact toOff
  case off.ramp | off.single | off.triangle => exact started
  case triangle.ramp | triangle.single => exact straightened (by decide)
  case ramp.triangle | single.triangle => exact bent (by simp [mode])
  case ramp.ramp | single.single | triangle.triangle => exact same mode
  case ramp.single | single.ramp => exact exchanged (by simp [mode]) (by decide)

/-- R105: the direction that a load writes agrees with the counter it writes. -/
theorem GeneratorLegal.load {g : Generator} (h : GeneratorLegal g) {c : Nat} (below : c ≤ g.period) (d : Direction) :
    GeneratorLegal { g with counter := c, dir := g.loadDirection c d, postCount := 0 } := by
  obtain ⟨period, pending, _, value, post, _, _, _, _⟩ := h
  refine ⟨period, pending, below, value, post, Nat.lt_of_lt_of_le Nat.zero_lt_one post.1, ?_, ?_, ?_⟩
  · rintro (ramp | single)
    · simp [Generator.loadDirection, show g.mode = .ramp from ramp]
    · simp [Generator.loadDirection, show g.mode = .single from single]
  · intro triangle up
    have notEnd : c ≠ g.period := by
      rintro rfl
      cases d <;> simp [Generator.loadDirection, show g.mode = .triangle from triangle] at up
      omega
    dsimp only
    omega
  · intro triangle down
    have notZero : c ≠ 0 := by
      rintro rfl
      cases d <;> simp [Generator.loadDirection, show g.mode = .triangle from triangle] at down
      omega
    dsimp only
    omega

/-! ### The four generators -/

/-- Four legal generators. -/
def GensLegal (gens : List Generator) : Prop := gens.length = 4 ∧ ∀ g ∈ gens, GeneratorLegal g

theorem gensLegal_reset : GensLegal (List.replicate 4 Generator.reset) :=
  ⟨rfl, fun _ h => List.eq_of_mem_replicate h ▸ generatorLegal_reset⟩

theorem GensLegal.getD {gens : List Generator} (h : GensLegal gens) (k : Nat) :
    GeneratorLegal (gens.getD k Generator.reset) := by
  rw [List.getD_eq_getElem?_getD]
  cases e : gens[k]? with
  | none => exact generatorLegal_reset
  | some g => exact h.2 g (List.mem_of_getElem? e)

/-- A legal generator put in place of one keeps the four legal. -/
theorem GensLegal.set {gens : List Generator} (h : GensLegal gens) (k : Nat) {x : Generator} (hx : GeneratorLegal x) :
    GensLegal (gens.set k x) := by
  refine ⟨by simpa using h.1, fun g hg => ?_⟩
  rcases List.mem_or_eq_of_mem_set hg with old | new
  · exact h.2 g old
  · exact new ▸ hx

/-- R103: an entry of a GENERATOR-SET brings the settings into their ranges before it writes the mode. -/
theorem GensLegal.setEntry (gens : List Generator) (e : List Byte) (h : GensLegal gens) :
    GensLegal (genSetEntry gens e).1 := by
  unfold genSetEntry
  split
  next k m d a _ _ _ _ =>
    refine h.set k.val (GeneratorLegal.changeMode ?_ m)
    obtain ⟨period, _, counter, _, _, _, straight, rising, falling⟩ := h.getD k.val
    exact ⟨period, by simp [clampPeriod], counter, by simp, by simp [clampPostscale],
      by simp [clampPostscale], straight, rising, falling⟩
  · exact h

/-- R105: an entry of a GENERATOR-LOAD writes a counter of at most the period, with a direction that agrees with it. -/
theorem GensLegal.loadEntry (gens : List Generator) (e : List Byte) (h : GensLegal gens) :
    GensLegal (genLoadEntry gens e).1 := by
  unfold genLoadEntry
  split
  next k d _ _ =>
    exact h.set k.val ((h.getD k.val).load (Nat.min_le_left _ _) d)
  · exact h

theorem GeneratorsLegal.boundary {s : State} (h : GeneratorsLegal s) (b n : Block) (x : Bool) :
    GeneratorsLegal (s.boundary b n x) := by
  apply State.boundary_phases h
  case step =>
    intro s n h
    unfold GeneratorsLegal
    rw [State.stepGenerators_gens]
    split
    · exact h
    · refine ⟨by simpa using h.1, fun g hg => ?_⟩
      obtain ⟨g, old, rfl⟩ := List.mem_map.1 hg
      exact (h.2 g old).stepped
  all_goals intros; simpa [GeneratorsLegal] using ‹_›

/-- R93: the four generators change at a boundary, by their two records, and at a RESTART or reset. -/
theorem step_keeps_generatorsLegal {s t : State} (legal : GeneratorsLegal s) (steps : step s = .next t) :
    GeneratorsLegal t := by
  refine step_keeps (P := GeneratorsLegal) (fun c s t hs executes => ?_) (fun s q hs => hs) legal steps
  apply exec_keeps executes hs
  case power => exact fun p => gensLegal_reset
  case assert => exact gensLegal_reset
  case arrival =>
    intro f g
    apply State.arrival_phases hs
    case boundary => exact fun s b n x h => h.boundary b n x
    all_goals intros; simpa [GeneratorsLegal] using ‹_›
  case generatorSet =>
    exact fun r => State.liveList_keeps (P := GeneratorsLegal)
      (takeEntries_inv GensLegal.setEntry _ _ _ _ hs) hs
  case generatorLoad =>
    exact fun r => State.liveList_keeps (P := GeneratorsLegal)
      (takeEntries_inv GensLegal.loadEntry _ _ _ _ hs) hs
  case restart =>
    unfold State.restart
    split
    · exact hs
    · dsimp only
      split
      · simpa [GeneratorsLegal, State.restartBlocks] using generatorLegal_reset
      · exact hs
  all_goals intros; simpa [GeneratorsLegal] using hs

/-! ### One guard group -/

theorem guardLegal_reset : GuardLegal GuardGroup.reset := by constructor <;> simp [GuardGroup.reset]

/-- R110 to R112: the detector changes the count and the trip state of an enabled source A alone. -/
theorem GuardLegal.detect {g : GuardGroup} (h : GuardLegal g) (peak : Nat) : GuardLegal (g.detect peak) := by
  obtain ⟨threshold, limit, count, action, disabledA, disabledB⟩ := h
  unfold GuardGroup.detect
  split
  next enabled =>
    refine ⟨threshold, limit, ?_, action, by simp [enabled], disabledB⟩
    simp only [GuardGroup.nextCount]
    split <;> omega
  · exact ⟨threshold, limit, count, action, disabledA, disabledB⟩

/-- R114, R115: a sample of the GUARD-B line changes the trip state of an enabled source B alone. -/
theorem GuardLegal.sample {g : GuardGroup} (h : GuardLegal g) (line : Bool) :
    GuardLegal { g with bTripped := g.sampledTrip line } := by
  obtain ⟨threshold, limit, count, action, disabledA, disabledB⟩ := h
  refine ⟨threshold, limit, count, action, disabledA, fun off => ?_⟩
  have off : g.bEnable = false := off
  simpa [GuardGroup.sampledTrip, off] using disabledB off

/-! ### The four guard groups -/

/-- Four legal guard groups. -/
def GroupsLegal (groups : List GuardGroup) : Prop := groups.length = 4 ∧ ∀ g ∈ groups, GuardLegal g

theorem GuardsLegal.group {s : State} (h : GuardsLegal s) (k : Nat) : GuardLegal (s.out.group k) := by
  rw [Output.group, List.getD_eq_getElem?_getD]
  cases e : s.out.groups[k]? with
  | none => exact guardLegal_reset
  | some g => exact h.2 g (List.mem_of_getElem? e)

/-- A legal group put in place of one keeps the four legal. -/
theorem GuardsLegal.set {s : State} (h : GuardsLegal s) (k : Nat) {x : GuardGroup} (hx : GuardLegal x) :
    GroupsLegal (s.out.groups.set k x) := by
  refine ⟨by simpa using h.1, fun g hg => ?_⟩
  rcases List.mem_or_eq_of_mem_set hg with old | new
  · exact h.2 g old
  · exact new ▸ hx

section
variable {s : State} (h : GuardsLegal s)
include h

theorem GuardsLegal.atArrival (line : Bool) : GuardsLegal (s.atArrival line) := by
  refine ⟨rfl, fun g hg => ?_⟩
  obtain ⟨k, _, rfl⟩ := List.mem_map.1 (show g ∈ tab 4 fun k =>
    { s.out.group k with bTripped := (s.out.group k).sampledTrip line } from hg)
  exact (h.group k).sample line

theorem GuardsLegal.finishPass (p : Pass) (w : Option WriteStage) (swapped : Bool) :
    GuardsLegal (s.finishPass p w swapped) := by
  unfold GuardsLegal
  rw [State.finishPass_out]
  refine ⟨rfl, fun g hg => ?_⟩
  obtain ⟨k, _, rfl⟩ := List.mem_map.1 (show g ∈ [0, 1, 2, 3].map fun k : Fin 4 => (s.out.group k.val).detect
    (groupPeak p.snapshot.groups (p.values s.tap.acc) k) from hg)
  exact (h.group k.val).detect _

theorem GuardsLegal.closePass (swapped : Bool) : GuardsLegal (s.closePass swapped) := by
  have cut : ∀ p, GuardsLegal (s.countCut p) := fun p => by simpa [GuardsLegal] using h
  unfold State.closePass
  split
  · exact h
  · split
    · exact h.finishPass _ none _
    · refine GuardsLegal.finishPass ?_ _ _ _
      exact cut _
    · exact (cut _).finishPass _ _ _
    · exact h

theorem GuardsLegal.abandonPass : GuardsLegal s.abandonPass := by
  obtain ⟨_, _, _, _, _, groups, _, _⟩ := s.abandonPass_out
  unfold GuardsLegal
  rwa [groups]

theorem GuardsLegal.boundary (b n : Block) (x : Bool) : GuardsLegal (s.boundary b n x) := by
  apply State.boundary_phases h
  case renumber => exact fun s b n h => h.abandonPass
  case close => exact fun s swapped h => h.closePass swapped
  case turn => exact fun s n h => h
  case exchange => exact fun s h => h
  case copy => exact fun s h => h
  case silence => exact fun s h => h
  all_goals intros; simpa [GuardsLegal] using ‹_›

theorem GuardsLegal.takePosition (f : Option Frame) (bad : Bool) : GuardsLegal (s.takePosition f bad) := by
  unfold GuardsLegal
  rw [State.takePosition_out]
  exact h

theorem GuardsLegal.loseLink : GuardsLegal s.loseLink := by
  unfold State.loseLink
  exact GuardsLegal.abandonPass h

theorem GuardsLegal.placeNotice (f : Frame) : GuardsLegal (s.placeNotice f) := by simpa [GuardsLegal] using h

theorem GuardsLegal.relock (f : Frame) : GuardsLegal (s.relock f) :=
  State.relock_phases h (fun _ _ h => h) (fun _ _ h => h) (fun _ _ _ h => h) (fun _ _ h => h) (fun _ h => h)
    (fun _ f h => h.placeNotice f) fun _ f bad h => h.takePosition f bad

theorem GuardsLegal.arrival (f : Frame) (g : Bool) : GuardsLegal (s.arrival f g) :=
  State.arrival_phases h (fun _ _ h => h) (fun _ _ h => h) (fun _ g h => h.atArrival g) (fun _ f h => h.relock f)
    (fun _ b n x h => h.boundary b n x) (fun _ f h => h.placeNotice f) (fun _ f bad h => h.takePosition f bad)
    fun _ h => h.loseLink

/-! ### The entries of a guard record -/

theorem GuardsLegal.releaseA (tag : Half) (k : Fin 4) (n : Nat) : GuardsLegal (s.releaseA tag k n) := by
  rw [State.releaseA_eq]
  obtain ⟨threshold, limit, _, action, _, disabledB⟩ := h.group k.val
  exact h.set k.val ⟨threshold, limit, Nat.zero_le _, action, fun _ => ⟨rfl, rfl⟩, disabledB⟩

theorem GuardsLegal.releaseB (tag : Half) (k : Fin 4) : GuardsLegal (s.releaseB tag k) := by
  rw [State.releaseB_eq]
  obtain ⟨threshold, limit, count, action, disabledA, _⟩ := h.group k.val
  exact h.set k.val ⟨threshold, limit, count, action, disabledA, fun _ => rfl⟩

end

/-- R117: the actions that an entry names lie in their range. -/
theorem guardActionOf_range {code n : Nat} (h : guardActionOf code = some (.attenuate n)) : 1 ≤ n ∧ n ≤ 4 := by
  unfold guardActionOf at h
  split at h
  · cases h
  · split at h
    · cases h
      omega
    · cases h

/-- R117: an entry of source A brings its settings into range; disabled, the source is released. -/
theorem GuardsLegal.setA {s : State} (h : GuardsLegal s) (tag : Half) (k : Fin 4) (enable : Bool) (m : GuardMode)
    {a : GuardAction} (range : ∀ n, a = .attenuate n → 1 ≤ n ∧ n ≤ 4) (threshold : Nat) {limit : Nat}
    (byte : limit < 256) : GuardsLegal (s.setA tag k enable m a threshold limit).1 := by
  obtain ⟨_, _, _, action, _, disabledB⟩ := h.group k.val
  have actions : ∀ n, a = .attenuate n ∨ (s.out.group k.val).bAction = .attenuate n → 1 ≤ n ∧ n ≤ 4 :=
    fun n e => e.elim (range n) fun old => action n (.inr old)
  have limits : 1 ≤ max 1 limit ∧ max 1 limit ≤ 255 := by omega
  have thresholds : 1 ≤ max 1 (min 8388608 threshold) ∧ max 1 (min 8388608 threshold) ≤ 8388608 := by omega
  cases enable with
  | true =>
    rw [State.setA_enabled]
    exact h.set k.val ⟨thresholds, limits, Nat.zero_le _, actions, by simp, disabledB⟩
  | false =>
    rw [State.setA_disabled h.1]
    exact h.set k.val ⟨thresholds, limits, Nat.zero_le _, actions, fun _ => ⟨rfl, rfl⟩, disabledB⟩

/-- R117: the same for an entry of source B. -/
theorem GuardsLegal.setB {s : State} (h : GuardsLegal s) (tag : Half) (k : Fin 4) (enable : Bool) (m : GuardMode)
    {a : GuardAction} (range : ∀ n, a = .attenuate n → 1 ≤ n ∧ n ≤ 4) : GuardsLegal (s.setB tag k enable m a).1 := by
  obtain ⟨threshold, limit, count, action, disabledA, _⟩ := h.group k.val
  have actions : ∀ n, (s.out.group k.val).aAction = .attenuate n ∨ a = .attenuate n → 1 ≤ n ∧ n ≤ 4 :=
    fun n e => e.elim (fun old => action n (.inl old)) (range n)
  cases enable with
  | true =>
    rw [State.setB_enabled]
    exact h.set k.val ⟨threshold, limit, count, actions, disabledA, by simp⟩
  | false =>
    rw [State.setB_disabled h.1]
    exact h.set k.val ⟨threshold, limit, count, actions, disabledA, fun _ => rfl⟩

theorem byteAt_lt (b : List Byte) (i : Nat) : byteAt b i < 256 := (b.getD i 0).isLt

theorem GuardsLegal.guardSetEntry (tag : Half) (s : State) (e : List Byte) (h : GuardsLegal s) :
    GuardsLegal (guardSetEntry tag s e).1 := by
  unfold Machine.guardSetEntry
  split
  next action => exact h.setA tag _ _ _ (fun n e => guardActionOf_range (e ▸ action)) _ (byteAt_lt e 8)
  next action => exact h.setB tag _ _ _ fun n e => guardActionOf_range (e ▸ action)
  · exact h

theorem GuardsLegal.guardReleaseEntry (tag : Half) (s : State) (e : List Byte) (h : GuardsLegal s) :
    GuardsLegal (guardReleaseEntry tag s e).1 := by
  unfold Machine.guardReleaseEntry
  split
  next k a b group release =>
    have released : GuardsLegal (if a then s.releaseA tag k (s.out.group k.val).count else s) := by
      split
      · exact h.releaseA _ _ _
      · exact h
    dsimp only
    split
    · exact released.releaseB _ _
    · exact released
  · exact h

theorem GuardsLegal.overrideEntry (m : OverrideMode) (line : Fin 64) (block : Bool) (s : State) (e : List Byte)
    (h : GuardsLegal s) : GuardsLegal (overrideEntry m line block s e).1 := by
  unfold Machine.overrideEntry
  split
  · exact h
  · cases block <;> exact h

theorem groupsLegal_reset : GroupsLegal (List.replicate 4 GuardGroup.reset) :=
  ⟨rfl, fun _ h => List.eq_of_mem_replicate h ▸ guardLegal_reset⟩

/-- R109: the guard groups change at an arrival, by FINISHING, by their two records, and at a RESTART or reset. -/
theorem step_keeps_guardsLegal {s t : State} (legal : GuardsLegal s) (steps : step s = .next t) : GuardsLegal t := by
  refine step_keeps (P := GuardsLegal) (fun c s t hs executes => ?_) (fun s q hs => hs) legal steps
  apply exec_keeps executes hs
  case power => exact fun p => groupsLegal_reset
  case assert => exact groupsLegal_reset
  case arrival => exact hs.arrival
  case gap => exact State.gapExpiry_phases hs (fun _ _ h => h) (fun _ h => h.loseLink) fun _ f bad h => h.takePosition f bad
  case finishing =>
    unfold State.completeFinishing
    split
    · simpa [GuardsLegal, State.finishUncut] using hs.finishPass _ none _
    · exact hs
  case override =>
    intro r
    refine State.liveList_keeps (P := GuardsLegal) ?_ hs
    split
    · exact hs
    · exact takeEntries_inv (P := GuardsLegal) (GuardsLegal.overrideEntry _ _ _) _ _ _ _ hs
  case guardSet =>
    exact fun r => State.liveList_keeps (P := GuardsLegal)
      (takeEntries_inv (P := GuardsLegal) (GuardsLegal.guardSetEntry r.tag) _ _ _ _ hs) hs
  case guardRelease =>
    exact fun r => State.liveList_keeps (P := GuardsLegal)
      (takeEntries_inv (P := GuardsLegal) (GuardsLegal.guardReleaseEntry r.tag) _ _ _ _ hs) hs
  case statusRead =>
    intro r
    unfold State.statusRead
    split
    · exact hs
    · refine State.liveList_keeps (P := GuardsLegal) ?_ hs
      dsimp only
      split <;> simpa [GuardsLegal, State.clearCounters] using hs
  case restart =>
    unfold State.restart
    split
    · exact hs
    · dsimp only
      split
      · simpa [GuardsLegal, State.restartBlocks, Output.reset] using guardLegal_reset
      · exact hs
  all_goals intros; simpa [GuardsLegal] using hs

/-- Settles O54: each change of a generator or of a guard group keeps the ranges and the agreements of its fields. -/
theorem stepKeepsGeneratorsLegal : Obligations.StepKeepsGeneratorsLegal :=
  ⟨fun _ _ legal steps => step_keeps_generatorsLegal legal steps, fun _ _ legal steps => step_keeps_guardsLegal legal steps⟩

end Sys2Proof.Safety
end

section
/-! PROOF. Every step keeps the master ramps idle at 0 in MUTED and QUIESCENT, and the self-refresh request with QUIESCENT
(R87, R89, R129). -/

namespace Sys2Proof.Machine

open Sys2Proof.Safety

/-! ### Silent ramps -/

/-- R81, R87: a ramp that is idle at 0 does not move. -/
theorem step_of_silent {m : Ramp} (h : SilentRamp m) : m.step = m := by
  obtain ⟨idle, _⟩ := h
  obtain ⟨g0, g1, len, p⟩ := m
  simp_all [Ramp.step]

theorem silentRamp_idleAtZero : SilentRamp Ramp.idleAtZero := ⟨rfl, by decide⟩

/-- R89: the check of the master ramps, in the words of Safety. -/
theorem Ramps.mastersSilent_iff (r : Ramps) : r.mastersSilent = true ↔ ∀ m ∈ r.masters, SilentRamp m := by
  simp [Ramps.mastersSilent, Ramp.idle, SilentRamp]

/-! ### What the record operations leave of the node state -/

section
variable (s : State)

@[simp] theorem State.queueNotice_node (n : Notice) :
    (s.queueNotice n).records.node = s.records.node ∧ (s.queueNotice n).records.drain = s.records.drain :=
  ⟨(sameButNotices_queueNotice _ _).node, (sameButNotices_queueNotice _ _).drain⟩

@[simp] theorem State.queueNotices_node (ns : List Notice) :
    (s.queueNotices ns).records.node = s.records.node ∧ (s.queueNotices ns).records.drain = s.records.drain :=
  ⟨(sameButNotices_queueNotices _ _).node, (sameButNotices_queueNotices _ _).drain⟩

@[simp] theorem State.complete_node (tag : Half) (op : Op) (notify : Bool) (o : RecordOutcome) (c : Counts) :
    (s.complete tag op notify o c).records.node = s.records.node ∧
    (s.complete tag op notify o c).records.drain = s.records.drain :=
  have same := sameButNotices_complete s.records s.noticeBlock tag op notify o c
  ⟨same.node, same.drain⟩

@[simp] theorem State.completeTable_node (r : Record) (o : RecordOutcome) (c : Counts) :
    (s.completeTable r o c).records.node = s.records.node ∧ (s.completeTable r o c).records.drain = s.records.drain :=
  s.popTable.complete_node _ _ _ _ _

@[simp] theorem State.completeLive_node (r : Record) (o : RecordOutcome) (c : Counts) :
    (s.completeLive r o c).records.node = s.records.node ∧ (s.completeLive r o c).records.drain = s.records.drain :=
  s.popLive.complete_node _ _ _ _ _

@[simp] theorem State.completeSetup_node :
    s.completeSetup.records.node = s.records.node ∧ s.completeSetup.records.drain = s.records.drain := by
  unfold State.completeSetup
  split <;> simp

@[simp] theorem State.finishUncut_node (p : Pass) (swapped : Bool) :
    (s.finishUncut p swapped).records.node = s.records.node ∧
    (s.finishUncut p swapped).records.drain = s.records.drain :=
  have same := s.finishPass_records swapped p none
  ⟨same.node, same.drain⟩

@[simp] theorem State.enqueue_node (r : Record) :
    (s.enqueue r).records.node = s.records.node ∧ (s.enqueue r).records.drain = s.records.drain := by
  unfold State.enqueue
  (repeat' split) <;> simp

/-- R88, R89, R91: mutes that complete leave the node state. -/
@[simp] theorem State.completeMutes_node (o : RecordOutcome) :
    (s.completeMutes o).records.node = s.records.node ∧ (s.completeMutes o).records.drain = s.records.drain := by
  unfold State.completeMutes
  simp only [State.withRecords_records]
  generalize s.records.awaitingMute = mutes
  generalize taken : { s.records with awaitingMute := [] } = r
  have node : r.node = s.records.node ∧ r.drain = s.records.drain := by simp [← taken]
  clear taken
  induction mutes generalizing r with
  | nil => exact node
  | cons m mutes ih => exact ih _ (by simpa using node)

end

/-! ### What the ramp operations leave of the master ramps -/

@[simp] theorem Ramps.withTaps_masters (r : Ramps) (k : BankNo) (x : List (Option Ramp)) :
    (r.withTaps k x).masters = r.masters := (r.withTaps_rest k x).1

@[simp] theorem Ramps.retargetTap_masters (r : Ramps) (k : BankNo) (i : Nat) (e : TapEntry) (g : Int) :
    (r.retargetTap k i e g).masters = r.masters := Ramps.withTaps_masters _ _ _

/-! ### What the controller operations leave of the self-refresh request -/

@[simp] theorem MemController.refreshDue_selfRefresh (m : MemController) : m.refreshDue.selfRefresh = m.selfRefresh := by
  unfold MemController.refreshDue
  split
  · split <;> rfl
  · rfl
  · rfl

@[simp] theorem MemController.refreshEnd_selfRefresh (m : MemController) : m.refreshEnd.selfRefresh = m.selfRefresh := by
  unfold MemController.refreshEnd
  dsimp only
  split <;> rfl

end Sys2Proof.Machine

namespace Sys2Proof.Safety

open Machine

/-! ### The invariant by its four fields -/

/-- What MutedIsSilent says of the master ramps, the node state, the drain and the self-refresh request. -/
structure SilentFields (masters : List Ramp) (node : NodeState) (drain : Option Nat) (request : Bool) : Prop where
  length : masters.length = 16
  silent : node = .muted ∨ node = .quiescent → ∀ m ∈ masters, SilentRamp m
  drain : drain ≠ none → node = .muting ∧ ∀ m ∈ masters, SilentRamp m
  request : request = true ↔ node = .quiescent

/-- The invariant of a node: what leaves the four fields leaves the same proposition. -/
def NodeSilent (s : State) : Prop := SilentFields s.ramps.masters s.records.node s.records.drain s.mem.selfRefresh

theorem mutedIsSilent_iff {s : State} : MutedIsSilent s ↔ NodeSilent s :=
  ⟨fun ⟨m, s, d, r⟩ => ⟨m, s, d, r⟩, fun ⟨m, s, d, r⟩ => ⟨m, s, d, r⟩⟩

section
variable {s : State} (h : NodeSilent s)
include h

theorem NodeSilent.takePosition (f : Option Frame) (bad : Bool) : NodeSilent (s.takePosition f bad) := by
  refine State.takePosition_phases h (fun _ _ h => h) (fun _ _ h => h) (fun _ _ h => h) fun s b h => ?_
  refine State.takeCell_phases h (fun s n h => ?_) (fun _ _ h => h) fun s r h => ?_
  · simpa [NodeSilent] using h
  · simpa [NodeSilent] using h

theorem NodeSilent.placeNotice (f : Frame) : NodeSilent (s.placeNotice f) :=
  State.placeNotice_phases h (fun _ _ h => h) fun _ _ _ _ h => h

theorem NodeSilent.relock (f : Frame) : NodeSilent (s.relock f) := by
  refine State.relock_phases h (fun _ _ h => h) (fun _ _ h => h) (fun _ _ _ h => h) (fun s n h => ?_) (fun _ h => h)
    (fun _ f h => h.placeNotice f) fun _ f bad h => h.takePosition f bad
  simpa [NodeSilent] using h

theorem NodeSilent.loseLink : NodeSilent s.loseLink := by
  unfold State.loseLink
  simpa [NodeSilent, State.advanceMem] using h

/-- R89: a drain runs only while every master ramp is idle at 0, so the node that it mutes is silent. -/
theorem NodeSilent.drainAtBoundary : NodeSilent s.drainAtBoundary := by
  obtain ⟨length, silent, drain, request⟩ := h
  unfold State.drainAtBoundary
  split
  next k muting draining =>
    have silent := (drain (by simp [draining])).2
    split
    · simpa [NodeSilent] using
        (⟨length, fun _ => silent, by simp, by simpa [muting] using request⟩ : SilentFields _ .muted none _)
    · exact ⟨length, by simp [muting], fun _ => ⟨muting, silent⟩, request⟩
  · exact ⟨length, silent, drain, request⟩

/-- R89: the first success of the mute check begins the drain. -/
theorem NodeSilent.muteCheck : NodeSilent s.muteCheck := by
  obtain ⟨length, silent, drain, request⟩ := h
  unfold State.muteCheck
  split
  next succeeds =>
    obtain ⟨muting, _, masters⟩ := succeeds
    exact ⟨length, silent, fun _ => ⟨muting, (Ramps.mastersSilent_iff _).1 masters⟩, request⟩
  · exact ⟨length, silent, drain, request⟩

/-- R81: stepping the ramps leaves those that are idle at 0. -/
theorem NodeSilent.stepAllRamps : NodeSilent s.stepAllRamps := by
  obtain ⟨length, silent, drain, request⟩ := h
  have stepped : (∀ m ∈ s.ramps.masters, SilentRamp m) → ∀ m ∈ s.ramps.masters.map Ramp.step, SilentRamp m := by
    intro all m hm
    obtain ⟨m, old, rfl⟩ := List.mem_map.1 hm
    rw [step_of_silent (all m old)]
    exact all m old
  exact ⟨by simpa [State.stepAllRamps] using length, fun node => stepped (silent node),
    fun running => ⟨(drain running).1, stepped (drain running).2⟩, request⟩

theorem NodeSilent.boundary (b n : Block) (x : Bool) : NodeSilent (s.boundary b n x) := by
  apply State.boundary_phases h
  case step =>
    intro s n h
    have same := s.stepGenerators_records n
    simpa [NodeSilent, same.node, same.drain] using h
  case judge =>
    intro s served n h
    have rest := s.swapAtBoundary_rest n served
    simpa [NodeSilent, rest] using h
  case close =>
    intro s swapped h
    have same := (s.closePass_rest swapped).1
    simpa [NodeSilent, same.node, same.drain] using h
  case drain => exact fun s h => h.drainAtBoundary
  case start =>
    intro s b h
    exact NodeSilent.muteCheck (NodeSilent.stepAllRamps h)
  case renumber =>
    intro s b n h
    simpa [NodeSilent, State.renumber] using h
  case turn => exact fun s n h => h
  case exchange => exact fun s h => h
  case copy => exact fun s h => h
  case silence => exact fun s h => h
  case noStart => exact fun s n h => h
  case reap => exact fun s h => h
  case advance =>
    intro s h
    simpa [NodeSilent, State.advanceMem] using h

theorem NodeSilent.arrival (f : Frame) (g : Bool) : NodeSilent (s.arrival f g) := by
  refine State.arrival_phases h (fun _ _ h => h) (fun _ _ h => h) (fun s g h => ?_) (fun _ f h => h.relock f)
    (fun _ b n x h => h.boundary b n x) (fun _ f h => h.placeNotice f) (fun _ f bad h => h.takePosition f bad)
    fun _ h => h.loseLink
  have same := s.atArrival_records g
  simpa [NodeSilent, same.node, same.drain] using h

/-! ### Bursts and MEMORY-SETUP -/

theorem NodeSilent.requestBurst : NodeSilent s.requestBurst := by
  unfold State.requestBurst
  split
  · split
    · simpa [NodeSilent, State.advanceMem] using h
    · exact h
  · exact h

theorem NodeSilent.endBurst : NodeSilent s.endBurst := by
  unfold State.endBurst
  split
  · simpa [NodeSilent, State.advanceMem, MemController.openFor] using h
  · exact h

theorem NodeSilent.memorySetup (r : Record) : NodeSilent (s.memorySetup r) := by
  have apply : ∀ count i l, NodeSilent (s.applySetup r count i l) := by
    intro count i l
    unfold State.applySetup
    dsimp only
    split
    next => exact h
    all_goals simpa [NodeSilent, State.advanceMem, MemController.serve] using h
  unfold State.memorySetup
  split
  · exact h
  · refine State.tableList_keeps ?_ (by simpa [NodeSilent] using h)
    split
    · exact apply _ _ _
    · exact apply _ _ _
    · simpa [NodeSilent] using h

/-! ### STATE records -/

/-- R88: a MUTE in RUN, where no drain runs, takes the node to MUTING. -/
theorem NodeSilent.mute (r : Record) : NodeSilent (s.mute r) := by
  obtain ⟨length, silent, drain, request⟩ := h
  unfold State.mute
  split
  next run =>
    have idle : s.records.drain = none := by
      by_contra running
      simpa [run] using (drain running).1
    refine NodeSilent.muteCheck ⟨by simp [Ramps.retargetMasters, tab], by simp [State.withNode], ?_, ?_⟩
    · intro running
      exact absurd idle running
    · simpa [State.withNode, run] using request
  · split
    · exact ⟨length, silent, drain, request⟩
    · simpa [NodeSilent] using (⟨length, silent, drain, request⟩ : SilentFields _ _ _ _)
  · simpa [NodeSilent] using (⟨length, silent, drain, request⟩ : SilentFields _ _ _ _)
  · simpa [NodeSilent] using (⟨length, silent, drain, request⟩ : SilentFields _ _ _ _)

/-- R91: a RUN in MUTED or MUTING, where no request is set, takes the node to RUN. -/
theorem NodeSilent.runNode (r : Record) : NodeSilent (s.runNode r) := by
  have kept : ∀ o c, NodeSilent (s.completeLive r o c) := fun o c => by simpa [NodeSilent] using h
  obtain ⟨length, silent, drain, request⟩ := h
  have play : s.records.node ≠ .quiescent → NodeSilent s.play := fun other =>
    ⟨by simp [State.play, Ramps.retargetMasters, tab], by simp [State.play], by simp [State.play],
      by simpa [State.play, other] using request⟩
  unfold State.runNode
  split
  next muted => simpa [NodeSilent] using play (by simp [muted])
  next muting => simpa [NodeSilent] using play (by simp [muting])
  · exact kept _ _
  · exact kept _ _

/-- R174: a QUIESCE in MUTED sets the request with QUIESCENT. -/
theorem NodeSilent.quiesce (r : Record) : NodeSilent (s.quiesce r) := by
  have kept : ∀ o c, NodeSilent (s.completeLive r o c) := fun o c => by simpa [NodeSilent] using h
  obtain ⟨length, silent, drain, request⟩ := h
  unfold State.quiesce
  split
  next muted =>
    have idle : s.records.drain = none := by
      by_contra running
      simpa [muted] using (drain running).1
    have entered : SilentFields s.ramps.masters .quiescent s.records.drain true :=
      ⟨length, fun _ => silent (.inl muted), by simp [idle], by simp⟩
    simpa [NodeSilent, State.advanceMem, State.withNode, MemController.quiesce] using entered
  all_goals exact kept _ _

/-- R175: a WAKE in QUIESCENT takes the request away with QUIESCENT. -/
theorem NodeSilent.wake (r : Record) : NodeSilent (s.wake r) := by
  have kept : ∀ o c, NodeSilent (s.completeLive r o c) := fun o c => by simpa [NodeSilent] using h
  obtain ⟨length, silent, drain, request⟩ := h
  unfold State.wake
  split
  next quiescent =>
    have idle : s.records.drain = none := by
      by_contra running
      simpa [quiescent] using (drain running).1
    have left : SilentFields s.ramps.masters .muted s.records.drain false :=
      ⟨length, fun _ => silent (.inr quiescent), by simp [idle], by simp⟩
    simpa [NodeSilent, State.advanceMem, State.withNode] using left
  all_goals exact kept _ _

end

/-! ### The commands together -/

/-- The power-on values: MUTED, with every master ramp idle at 0 and no request. -/
theorem silentFields_reset : SilentFields Ramps.reset.masters Records.reset.node Records.reset.drain false :=
  ⟨rfl, fun _ _ h => List.eq_of_mem_replicate h ▸ silentRamp_idleAtZero, fun h => absurd rfl h, by simp [Records.reset]⟩

/-- R84: a master ramp is retargeted in RUN alone, where the invariant asks for no silence. -/
theorem NodeSilent.masterGainEntry (s : State) (e : List Byte) (h : NodeSilent s) :
    NodeSilent (masterGainEntry s e).1 := by
  unfold Machine.masterGainEntry
  split
  · exact h
  · dsimp only
    split
    next run =>
      obtain ⟨length, silent, drain, request⟩ := h
      have run : s.records.node = .run := run
      refine ⟨by simpa [Ramps.retargetMaster] using length, ?_, ?_, request⟩
      · intro quiet
        simp [run] at quiet
      · intro running
        simpa [run] using (drain running).1
    · exact h

/-- R24: a pair of a TAP-GAIN retargets a tap ramp, no master ramp. -/
theorem NodeSilent.tapGainEntry (s : State) (e : List Byte) (h : NodeSilent s) : NodeSilent (tapGainEntry s e).1 := by
  unfold Machine.tapGainEntry
  dsimp only
  split
  · simpa [NodeSilent] using h
  · exact h

/-- Settles O55: the node state, the drain, the request and the master ramps change together. -/
theorem stepKeepsMutedSilent : Obligations.StepKeepsMutedSilent := by
  intro s t silent steps
  refine mutedIsSilent_iff.2 (step_keeps (P := NodeSilent) (fun c s t hs executes => ?_) (fun s q hs => hs)
    (mutedIsSilent_iff.1 silent) steps)
  have live : ∀ r o c, NodeSilent (s.completeLive r o c) := fun r o c => by simpa [NodeSilent] using hs
  have table : ∀ r o c, NodeSilent (s.completeTable r o c) := fun r o c => by simpa [NodeSilent] using hs
  apply exec_keeps executes hs
  case power => exact fun p => silentFields_reset
  case assert => exact silentFields_reset
  case release => exact fun p => hs
  case arrival => exact hs.arrival
  case gap => exact State.gapExpiry_phases hs (fun _ _ h => h) (fun _ h => h.loseLink) fun _ f bad h => h.takePosition f bad
  case mute => exact hs.mute
  case run => exact hs.runNode
  case quiesce => exact hs.quiesce
  case wake => exact hs.wake
  case masterGain =>
    refine fun r => State.liveList_keeps ?_ (live r _ _)
    simpa [NodeSilent] using takeEntries_inv NodeSilent.masterGainEntry _ _ _ _ hs
  case request => exact hs.requestBurst
  case burst => exact hs.endBurst
  case finishing =>
    unfold State.completeFinishing
    split
    · simpa [NodeSilent, State.advanceMem] using hs
    · exact hs
  case due =>
    unfold State.refreshExpiry
    split
    · simpa [NodeSilent, State.advanceMem] using hs
    all_goals exact hs
  case refresh =>
    unfold State.endRefresh
    split
    · simpa [NodeSilent, State.advanceMem] using hs
    · exact hs
  case initialized =>
    unfold State.endInitialization
    split
    · simpa [NodeSilent, State.advanceMem, MemController.arriveReady] using hs
    · exact hs
  case modeSet =>
    unfold State.endModeSet
    split
    · simpa [NodeSilent, State.advanceMem, MemController.arriveReady] using hs
    · exact hs
  case entering =>
    unfold State.endEntering
    split <;> exact hs
  case leaving =>
    unfold State.endLeaving
    split
    · simpa [NodeSilent, State.advanceMem, MemController.arriveReady] using hs
    · exact hs
  case tapWrite => exact fun _ r => State.tableList_keeps (by simpa [NodeSilent] using hs) (table r _ _)
  case tapClear => exact fun _ r => State.tableList_keeps (by simpa [NodeSilent] using hs) (table r _ _)
  case copyActive => exact fun _ r => State.tableList_keeps (by simpa [NodeSilent] using hs) (table r _ _)
  case lineMap => exact fun r => State.tableList_keeps (by simpa [NodeSilent] using hs) (table r _ _)
  case outputMap => exact fun r => State.tableList_keeps (by simpa [NodeSilent] using hs) (table r _ _)
  case swap =>
    intro r
    unfold State.swapRecord
    split
    · exact hs
    · refine State.tableList_keeps ?_ (table r _ _)
      split
      · exact hs
      · exact table r _ _
  case memorySetup => exact hs.memorySetup
  case tapGain =>
    refine fun r => State.liveList_keeps ?_ (live r _ _)
    simpa [NodeSilent] using takeEntries_inv NodeSilent.tapGainEntry _ _ _ _ hs
  case override =>
    intro r
    refine State.liveList_keeps ?_ (live r _ _)
    split
    · exact live r _ _
    · simpa [NodeSilent] using hs
  case guardSet =>
    refine fun r => State.liveList_keeps ?_ (live r _ _)
    have same := takeEntries_records (guardSetEntry_records r.tag) (entriesOf 9 r.body) s
    simpa [NodeSilent, same.node, same.drain] using hs
  case guardRelease =>
    refine fun r => State.liveList_keeps ?_ (live r _ _)
    have same := takeEntries_records (guardReleaseEntry_records r.tag) (entriesOf 2 r.body) s
    simpa [NodeSilent, same.node, same.drain] using hs
  case generatorSet => exact fun r => State.liveList_keeps (by simpa [NodeSilent] using hs) (live r _ _)
  case generatorLoad => exact fun r => State.liveList_keeps (by simpa [NodeSilent] using hs) (live r _ _)
  case rampSet => exact fun r => State.liveList_keeps (by simpa [NodeSilent] using hs) (live r _ _)
  case cancelSwap =>
    intro r
    refine State.liveList_keeps ?_ (live r _ _)
    split
    · exact live r _ _
    · simpa [NodeSilent, State.popTable] using hs
  case malformed => exact fun r => live r _ _
  case statusRead =>
    intro r
    unfold State.statusRead
    split
    · exact hs
    · refine State.liveList_keeps ?_ (live r _ _)
      dsimp only
      split <;> simpa [NodeSilent, State.clearCounters, State.popLive] using hs
  case restart =>
    unfold State.restart
    split
    · exact hs
    · dsimp only
      split
      · simpa [NodeSilent, State.advanceMem, State.restartBlocks] using silentFields_reset
      · simpa [NodeSilent] using hs

end Sys2Proof.Safety
end

section
/-! PROOF. Every step keeps the output slots of the 16 channels distinct, in the channel table and in its copy (R26, R28,
R29). -/

namespace Sys2Proof.Machine

open Sys2Proof.Safety

/-! ### The channel table -/

/-- A list with one member replaced, read at a place of the list. -/
theorem getD_set_of_lt {α : Type} {l : List α} {c : Nat} (inside : c < l.length) (x d : α) (k : Nat) :
    (l.set c x).getD k d = if k = c then x else l.getD k d := by
  rw [List.getD_eq_getElem?_getD, List.getElem?_set, List.getD_eq_getElem?_getD]
  by_cases same : c = k
  · subst same
    simp [inside]
  · simp [same, Ne.symm same]

/-- R28: the displaced table has 16 channels. -/
@[simp] theorem displace_length (channels : List Channel) (c : Nat) (slot : Option (Fin 128)) :
    (displace channels c slot).length = 16 := by simp [displace, tab]

/-- R28: a channel after another channel took a slot. -/
theorem displace_getD (channels : List Channel) (c : Nat) (slot : Option (Fin 128)) {k : Nat} (hk : k < 16) :
    (displace channels c slot).getD k Channel.reset =
      if k ≠ c ∧ slot.isSome ∧ (channels.getD k Channel.reset).slot = slot then
        { channels.getD k Channel.reset with slot := none }
      else channels.getD k Channel.reset := getD_tab _ _ _ _ hk

/-- R27, R28: the channel table after a valid entry gave channel `c` a slot and a group. -/
def mapChannel (channels : List Channel) (c : Fin 16) (slot : Option (Fin 128)) (group : Option (Fin 4)) : List Channel :=
  (displace channels c.val slot).set c.val
    { (displace channels c.val slot).getD c.val Channel.reset with slot := slot, group := group }

@[simp] theorem mapChannel_length (channels : List Channel) (c : Fin 16) (slot : Option (Fin 128))
    (group : Option (Fin 4)) : (mapChannel channels c slot group).length = 16 := by simp [mapChannel]

/-- R27, R28: each channel after a valid entry. -/
theorem mapChannel_getD (channels : List Channel) (c : Fin 16) (slot : Option (Fin 128)) (group : Option (Fin 4))
    {k : Nat} (hk : k < 16) : (mapChannel channels c slot group).getD k Channel.reset =
      if k = c.val then { channels.getD k Channel.reset with slot := slot, group := group }
      else if slot.isSome ∧ (channels.getD k Channel.reset).slot = slot then
        { channels.getD k Channel.reset with slot := none }
      else channels.getD k Channel.reset := by
  rw [mapChannel, getD_set_of_lt (by simp [c.isLt]), displace_getD _ _ _ c.isLt, displace_getD _ _ _ hk]
  by_cases same : k = c.val
  · simp [same]
  · simp [same]

/-- R27: a valid entry of one of the node's channels maps the channel. -/
theorem outputMapEntry_of_valid {owner : Nat → Option (Fin 16)} (channels : List Channel) {e : List Byte} {c : Fin 16}
    {slot : Option (Fin 128)} {group : Option (Fin 4)} (owned : owner (byteAt e 0) = some c)
    (hslot : slotOf (byteAt e 1) = some slot) (hgroup : groupOf (byteAt e 2) = some group) :
    outputMapEntry owner channels e = (mapChannel channels c slot group,
      { written := true, clamped := slotTaken channels c.val slot }) := by
  simp only [outputMapEntry, owned, hslot, hgroup]
  rfl

/-- R27: an entry changes the table only where it is valid. -/
theorem outputMapEntry_table {P : List Channel → Prop} (owner : Nat → Option (Fin 16)) {channels : List Channel}
    (e : List Byte) (unchanged : P channels) (mapped : ∀ c slot group, P (mapChannel channels c slot group)) :
    P (outputMapEntry owner channels e).1 := by
  unfold outputMapEntry
  split
  · exact unchanged
  · split
    · exact mapped _ _ _
    · exact unchanged

/-- R29: the copy of a channel's slot and group. -/
theorem State.copyChannels_getD (s : State) {c : Nat} (hc : c < 16) :
    s.copyChannels.out.copy.getD c ⟨none, none⟩ = ⟨(s.store.channel c).slot, (s.store.channel c).group⟩ :=
  getD_tab 16 (fun c => (⟨(s.store.channel c).slot, (s.store.channel c).group⟩ : ChannelCopy)) ⟨none, none⟩ c hc

/-! ### What leaves the channel table and its copy -/

@[simp] theorem Store.withBank_channels (t : Store) (k : BankNo) (b : Bank) : (t.withBank k b).channels = t.channels := by
  unfold Store.withBank
  split <;> rfl

@[simp] theorem State.closePass_channels (s : State) (swapped : Bool) :
    (s.closePass swapped).store.channels = s.store.channels ∧ (s.closePass swapped).out.copy = s.out.copy := by
  obtain ⟨_, store, _, _, _, copy, _⟩ := s.closePass_rest swapped
  exact ⟨by rw [store], copy⟩

@[simp] theorem State.finishUncut_channels (s : State) (p : Pass) (swapped : Bool) :
    (s.finishUncut p swapped).store.channels = s.store.channels ∧ (s.finishUncut p swapped).out.copy = s.out.copy := by
  obtain ⟨store, _⟩ := s.finishPass_store swapped p none
  refine ⟨?_, ?_⟩
  · rw [State.finishUncut, State.withTap_store, store]
  · rw [State.finishUncut, State.withTap_out, State.finishPass_out]
    simp [State.formOutput]

@[simp] theorem State.swapAtBoundary_channels (s : State) (served : List (Fin 4)) (n : Block) :
    (s.swapAtBoundary served n).1.store.channels = s.store.channels := (s.swapAtBoundary_rest n served).1

@[simp] theorem State.abandonPass_copy (s : State) : s.abandonPass.out.copy = s.out.copy := by
  obtain ⟨_, _, _, _, copy, _⟩ := s.abandonPass_out
  exact copy

/-! ### What a guard record leaves of the output stage -/

@[simp] theorem State.releaseA_outKeeps (s : State) (tag : Half) (k : Fin 4) (n : Nat) :
    (s.releaseA tag k n).out.copy = s.out.copy ∧ (s.releaseA tag k n).out.recording = s.out.recording := by
  rw [State.releaseA_eq]
  exact ⟨rfl, rfl⟩

@[simp] theorem State.releaseB_outKeeps (s : State) (tag : Half) (k : Fin 4) :
    (s.releaseB tag k).out.copy = s.out.copy ∧ (s.releaseB tag k).out.recording = s.out.recording := by
  rw [State.releaseB_eq]
  exact ⟨rfl, rfl⟩

@[simp] theorem guardSetEntry_outKeeps (tag : Half) (s : State) (e : List Byte) :
    (guardSetEntry tag s e).1.out.copy = s.out.copy ∧ (guardSetEntry tag s e).1.out.recording = s.out.recording := by
  unfold guardSetEntry
  split
  · unfold State.setA
    dsimp only
    split <;> simp [Output.withGroup]
  · unfold State.setB
    dsimp only
    split <;> simp [Output.withGroup]
  · exact ⟨rfl, rfl⟩

@[simp] theorem guardReleaseEntry_outKeeps (tag : Half) (s : State) (e : List Byte) :
    (guardReleaseEntry tag s e).1.out.copy = s.out.copy ∧ (guardReleaseEntry tag s e).1.out.recording = s.out.recording := by
  unfold guardReleaseEntry
  split
  · dsimp only
    split <;> split <;> simp
  · exact ⟨rfl, rfl⟩

@[simp] theorem guardSetEntry_all_outKeeps (tag : Half) (s : State) (es : List (List Byte)) (i : Nat) (t : Tally) :
    (takeEntries (guardSetEntry tag) es i s t).1.out.copy = s.out.copy ∧
    (takeEntries (guardSetEntry tag) es i s t).1.out.recording = s.out.recording :=
  takeEntries_inv (P := fun u => u.out.copy = s.out.copy ∧ u.out.recording = s.out.recording)
    (fun u e h => by simpa using h) es i s t ⟨rfl, rfl⟩

@[simp] theorem guardReleaseEntry_all_outKeeps (tag : Half) (s : State) (es : List (List Byte)) (i : Nat) (t : Tally) :
    (takeEntries (guardReleaseEntry tag) es i s t).1.out.copy = s.out.copy ∧
    (takeEntries (guardReleaseEntry tag) es i s t).1.out.recording = s.out.recording :=
  takeEntries_inv (P := fun u => u.out.copy = s.out.copy ∧ u.out.recording = s.out.recording)
    (fun u e h => by simpa using h) es i s t ⟨rfl, rfl⟩

end Sys2Proof.Machine

namespace Sys2Proof.Safety

open Machine

/-! ### Distinct slots -/

/-- No two of 16 channels hold the same output slot. -/
def DistinctSlots (slot : Nat → Option (Fin 128)) : Prop :=
  ∀ c < 16, ∀ c' < 16, ∀ n, slot c = some n → slot c' = some n → c = c'

theorem DistinctSlots.congr {slot slot' : Nat → Option (Fin 128)} (h : DistinctSlots slot)
    (same : ∀ c < 16, slot' c = slot c) : DistinctSlots slot' := by
  intro c hc c' hc' n
  rw [same c hc, same c' hc']
  exact h c hc c' hc' n

theorem distinctSlots_none : DistinctSlots fun _ => none := nofun

/-- A channel table of 16 channels with distinct slots. -/
def TableDistinct (channels : List Channel) : Prop :=
  channels.length = 16 ∧ DistinctSlots fun c => (channels.getD c Channel.reset).slot

theorem tableDistinct_reset : TableDistinct (List.replicate 16 Channel.reset) :=
  ⟨rfl, distinctSlots_none.congr fun _ hc => congrArg Channel.slot (List.getD_replicate _ hc)⟩

/-- A channel that keeps its slot keeps the slots distinct. -/
theorem TableDistinct.set {channels : List Channel} (h : TableDistinct channels) {c : Nat} (inside : c < 16) {x : Channel}
    (slot : x.slot = (channels.getD c Channel.reset).slot) : TableDistinct (channels.set c x) := by
  obtain ⟨length, distinct⟩ := h
  refine ⟨by simpa using length, distinct.congr fun k _ => ?_⟩
  rw [getD_set_of_lt (by omega)]
  split
  next same => rw [slot, same]
  next => rfl

/-- R28: the channel that takes a slot is the only one to hold it. -/
theorem TableDistinct.mapChannel {channels : List Channel} (h : TableDistinct channels) (c : Fin 16)
    (slot : Option (Fin 128)) (group : Option (Fin 4)) : TableDistinct (mapChannel channels c slot group) := by
  refine ⟨by simp, fun a ha b hb n => ?_⟩
  have old := h.2 a ha b hb n
  dsimp only at old ⊢
  rw [mapChannel_getD _ _ _ _ ha, mapChannel_getD _ _ _ _ hb]
  intro holdsA holdsB
  by_cases first : a = c.val
  · by_cases second : b = c.val
    · omega
    · grind
  · by_cases second : b = c.val
    · grind
    · grind

theorem TableDistinct.outputMapEntry (owner : Nat → Option (Fin 16)) (channels : List Channel) (e : List Byte)
    (h : TableDistinct channels) : TableDistinct (outputMapEntry owner channels e).1 :=
  outputMapEntry_table owner e h fun c slot group => h.mapChannel c slot group

/-! ### The invariant by its two tables -/

/-- The invariant of a node: what leaves both tables leaves the same proposition. -/
def NodeDistinct (s : State) : Prop :=
  TableDistinct s.store.channels ∧ DistinctSlots fun c => (s.out.copy.getD c ⟨none, none⟩).slot

theorem slotsDistinct_iff {s : State} : SlotsDistinct s ↔ NodeDistinct s :=
  ⟨fun ⟨l, t, c⟩ => ⟨⟨l, t⟩, c⟩, fun ⟨⟨l, t⟩, c⟩ => ⟨l, t, c⟩⟩

section
variable {s : State} (h : NodeDistinct s)
include h

/-- R29: the copy of a table with distinct slots has distinct slots. -/
theorem NodeDistinct.copyChannels : NodeDistinct s.copyChannels :=
  by
  refine ⟨h.1, h.1.2.congr fun c hc => ?_⟩
  rw [State.copyChannels_getD s hc]
  rfl

theorem NodeDistinct.takePosition (f : Option Frame) (bad : Bool) : NodeDistinct (s.takePosition f bad) :=
  State.takePosition_phases h (fun _ _ h => h) (fun _ _ h => h) (fun _ _ h => h) fun _ _ h => by
    simpa [NodeDistinct] using h

theorem NodeDistinct.loseLink : NodeDistinct s.loseLink := by
  unfold State.loseLink
  simpa [NodeDistinct] using h

theorem NodeDistinct.placeNotice (f : Frame) : NodeDistinct (s.placeNotice f) := by simpa [NodeDistinct] using h

theorem NodeDistinct.relock (f : Frame) : NodeDistinct (s.relock f) :=
  State.relock_phases h (fun _ _ h => h) (fun _ _ h => h) (fun _ _ _ h => h) (fun _ _ h => h) (fun _ h => h.copyChannels)
    (fun _ f h => h.placeNotice f) fun _ f bad h => h.takePosition f bad

theorem NodeDistinct.boundary (b n : Block) (x : Bool) : NodeDistinct (s.boundary b n x) := by
  apply State.boundary_phases h
  case copy => exact fun s h => h.copyChannels
  case turn => exact fun s n h => h
  case exchange => exact fun s h => h
  case silence => exact fun s h => h
  case renumber =>
    intro s b n h
    simpa [NodeDistinct, State.renumber] using h
  all_goals intros; simpa [NodeDistinct] using ‹_›

theorem NodeDistinct.arrival (f : Frame) (g : Bool) : NodeDistinct (s.arrival f g) :=
  State.arrival_phases h (fun _ _ h => h) (fun _ _ h => h) (fun _ _ h => h) (fun _ f h => h.relock f)
    (fun _ b n x h => h.boundary b n x) (fun _ f h => h.placeNotice f) (fun _ f bad h => h.takePosition f bad)
    fun _ h => h.loseLink

end

/-! ### Records that change channels -/

/-- R24: a pair of a TAP-GAIN changes the ACTIVE bank, no channel. -/
theorem NodeDistinct.tapGainEntry (s : State) (e : List Byte) (h : NodeDistinct s) :
    NodeDistinct (tapGainEntry s e).1 := by
  unfold Machine.tapGainEntry
  dsimp only
  split
  · simpa [NodeDistinct] using h
  · exact h

theorem NodeDistinct.masterGainEntry (s : State) (e : List Byte) (h : NodeDistinct s) :
    NodeDistinct (masterGainEntry s e).1 := by
  have set : ∀ (c : Fin 16) g, TableDistinct (s.store.withSetGain c.val g).channels := fun c g => h.1.set c.isLt rfl
  unfold Machine.masterGainEntry
  split
  · exact h
  · dsimp only
    split
    · exact ⟨set _ _, h.2⟩
    · exact ⟨set _ _, h.2⟩

theorem NodeDistinct.overrideEntry (m : OverrideMode) (line : Fin 64) (block : Bool) (s : State) (e : List Byte)
    (h : NodeDistinct s) : NodeDistinct (overrideEntry m line block s e).1 := by
  unfold Machine.overrideEntry
  split
  · exact h
  next c _ =>
    have set : TableDistinct (s.store.withOverride c.val m line).channels := h.1.set c.isLt rfl
    cases block <;> exact ⟨set, h.2⟩

/-- Settles O56: an OUTPUT-MAP takes a slot from every other channel, and the copy is made of the table. -/
theorem stepKeepsSlotsDistinct : Obligations.StepKeepsSlotsDistinct := by
  intro s t distinct steps
  refine slotsDistinct_iff.2 (step_keeps (P := NodeDistinct) (fun c s t hs executes => ?_) (fun s q hs => hs)
    (slotsDistinct_iff.1 distinct) steps)
  have copyReset : DistinctSlots fun c => ((List.replicate 16 (⟨none, none⟩ : ChannelCopy)).getD c ⟨none, none⟩).slot :=
    distinctSlots_none.congr fun _ hc => congrArg ChannelCopy.slot (List.getD_replicate _ hc)
  apply exec_keeps executes hs
  case power => exact fun p => ⟨tableDistinct_reset, copyReset⟩
  case assert => exact ⟨tableDistinct_reset, copyReset⟩
  case release => exact fun p => hs
  case arrival => exact hs.arrival
  case gap => exact State.gapExpiry_phases hs (fun _ _ h => h) (fun _ h => h.loseLink) fun _ f bad h => h.takePosition f bad
  case finishing =>
    unfold State.completeFinishing
    split
    · simpa [NodeDistinct] using hs
    · exact hs
  case tapWrite =>
    intro _ r
    refine State.tableList_keeps (P := NodeDistinct) ?_ hs
    have kept := takeEntries_inv (P := fun t : Store => t.channels = s.store.channels) (f := tapWriteEntry s.position)
      (fun t e same => by
        unfold tapWriteEntry
        split
        · exact same
        · simp only [Store.advancePointer]
          split <;> simpa using same)
      (entriesOf 16 (r.body.drop 4)) 0 (s.store.loadPointer (field2 r.body 0)) {} rfl
    simpa [NodeDistinct, kept] using hs
  case tapClear => exact fun _ r => State.tableList_keeps (P := NodeDistinct) (by simpa [NodeDistinct] using hs) hs
  case copyActive => exact fun _ r => State.tableList_keeps (P := NodeDistinct) (by simpa [NodeDistinct] using hs) hs
  case swap =>
    intro r
    unfold State.swapRecord
    split
    · exact hs
    · refine State.tableList_keeps (P := NodeDistinct) ?_ hs
      split <;> exact hs
  case outputMap =>
    intro r
    refine State.tableList_keeps (P := NodeDistinct) ⟨?_, hs.2⟩ hs
    exact takeEntries_inv (TableDistinct.outputMapEntry s.localChannel) _ _ _ _ hs.1
  case tapGain =>
    exact fun r => State.liveList_keeps (P := NodeDistinct)
      (takeEntries_inv (P := NodeDistinct) NodeDistinct.tapGainEntry _ _ _ _ hs) hs
  case masterGain =>
    exact fun r => State.liveList_keeps (P := NodeDistinct)
      (takeEntries_inv (P := NodeDistinct) NodeDistinct.masterGainEntry _ _ _ _ hs) hs
  case override =>
    intro r
    refine State.liveList_keeps (P := NodeDistinct) ?_ hs
    split
    · exact hs
    · exact takeEntries_inv (P := NodeDistinct) (NodeDistinct.overrideEntry _ _ _) _ _ _ _ hs
  case guardSet => exact fun r => State.liveList_keeps (P := NodeDistinct) (by simpa [NodeDistinct] using hs) hs
  case guardRelease => exact fun r => State.liveList_keeps (P := NodeDistinct) (by simpa [NodeDistinct] using hs) hs
  case cancelSwap =>
    intro r
    refine State.liveList_keeps (P := NodeDistinct) ?_ hs
    split
    · exact hs
    · simpa [NodeDistinct] using hs
  case statusRead =>
    intro r
    unfold State.statusRead
    split
    · exact hs
    · refine State.liveList_keeps (P := NodeDistinct) ?_ hs
      dsimp only
      split <;> simpa [NodeDistinct, State.clearCounters] using hs
  case restart =>
    unfold State.restart
    split
    · exact hs
    · dsimp only
      split
      · have copied := hs.2
        simpa [NodeDistinct, State.restartBlocks, Store.reset] using And.intro tableDistinct_reset copied
      · exact hs
  all_goals intros; simpa [NodeDistinct] using hs

end Sys2Proof.Safety
end

section
/-! PROOF. The tap banks and their ramps, bank by bank, and the check of a tap entry (R16, R18). -/

namespace Sys2Proof.Machine

open Sys2Proof.Safety

/-! ### The two banks -/

theorem otherBank_ne : ∀ k : BankNo, otherBank k ≠ k := by decide

theorem otherBank_otherBank : ∀ k : BankNo, otherBank (otherBank k) = k := by decide

theorem eq_otherBank_of_ne : ∀ {j k : BankNo}, j ≠ k → j = otherBank k := by decide

/-- A bank after one of the two was replaced. -/
theorem Store.withBank_bank (t : Store) (k : BankNo) (b : Bank) (j : BankNo) :
    (t.withBank k b).bank j = if j = k then b else t.bank j := by
  fin_cases j <;> fin_cases k <;> rfl

/-- Replacing a bank leaves the roles, the pointer and the pending swap. -/
@[simp] theorem Store.withBank_rest (t : Store) (k : BankNo) (b : Bank) :
    (t.withBank k b).active = t.active ∧ (t.withBank k b).fade = t.fade ∧ (t.withBank k b).endReady = t.endReady ∧
    (t.withBank k b).pointer = t.pointer ∧ (t.withBank k b).pointerLocked = t.pointerLocked ∧
    (t.withBank k b).swap = t.swap := by
  unfold Store.withBank
  split <;> simp

/-- The tap ramps of a bank after those of one of the two were replaced. -/
theorem Ramps.withTaps_taps (r : Ramps) (k : BankNo) (x : List (Option Ramp)) (j : BankNo) :
    (r.withTaps k x).taps j = if j = k then x else r.taps j := by
  fin_cases j <;> fin_cases k <;> rfl

/-! ### Fields of a body -/

theorem field2_lt (b : List Byte) (i : Nat) : field2 b i < 65536 := by
  have high : byteAt b i < 256 := (b.getD i 0).isLt
  have low : byteAt b (i + 1) < 256 := (b.getD (i + 1) 0).isLt
  unfold field2
  omega

theorem asFin_of_lt {n k : Nat} (h : k < n) : asFin n k = some ⟨k, h⟩ := dif_pos h

/-! ### The check of a tap entry -/

/-- R18: the delay that a wire entry sends, in 1/256 sample. -/
def sentDelay (e : List Byte) : Nat := 256 * field3 e 2 + byteAt e 5

/-- R18: the stored delay is the sent one, brought into the read window. -/
theorem tapEntryOf_delay (channel : Fin 16) (line : Fin 64) (e : List Byte) :
    256 * (tapEntryOf channel line e).1.delay + (tapEntryOf channel line e).1.fraction.toNat =
      max 16384 (min 33562623 (sentDelay e)) := by
  have split : ∀ d, 256 * (d / 256) + (BitVec.ofNat 8 (d % 256)).toNat = d := by
    intro d
    rw [BitVec.toNat_ofNat]
    omega
  exact split _

/-- R18: a stored delay lies in the read window. -/
theorem tapEntryOf_window (channel : Fin 16) (line : Fin 64) (e : List Byte) :
    64 ≤ (tapEntryOf channel line e).1.delay ∧ (tapEntryOf channel line e).1.delay ≤ 131103 := by
  have delay := tapEntryOf_delay channel line e
  have fraction := (tapEntryOf channel line e).1.fraction.isLt
  omega

/-- R18: an entry counts as clamped where its delay or its generator code was out of range. -/
theorem tapEntryOf_clamped (channel : Fin 16) (line : Fin 64) (e : List Byte) :
    (tapEntryOf channel line e).2 = true ↔ sentDelay e < 16384 ∨ 33562623 < sentDelay e ∨ 5 ≤ byteAt e 9 := by
  have clamped : (tapEntryOf channel line e).2 = (clampDelay (sentDelay e) != sentDelay e || decide (5 ≤ byteAt e 9)) := rfl
  rw [clamped]
  simp only [clampDelay, Bool.or_eq_true, bne_iff_ne, decide_eq_true_eq]
  omega

/-- R18: the generator code 0 names none, 1 to 4 name one, and a clamped one names none. -/
theorem tapEntryOf_gen (channel : Fin 16) (line : Fin 64) (e : List Byte) :
    (tapEntryOf channel line e).1.gen.map Fin.val =
      if 1 ≤ byteAt e 9 ∧ byteAt e 9 ≤ 4 then some (byteAt e 9 - 1) else none := by
  have gen : (tapEntryOf channel line e).1.gen = if byteAt e 9 = 0 then none else asFin 4 (byteAt e 9 - 1) := rfl
  rw [gen]
  by_cases zero : byteAt e 9 = 0
  · simp [zero]
  · by_cases named : byteAt e 9 ≤ 4
    · rw [if_neg zero, asFin_of_lt (show byteAt e 9 - 1 < 4 by omega), if_pos (by omega)]
      rfl
    · rw [if_neg zero, asFin_of_le (by omega), if_neg (by omega)]
      rfl

/-- R18: an entry of one of the node's channels with a line of the device is stored ACTIVE. -/
theorem checkTapEntry_of_valid {p : Fin 4} {e : List Byte} (present : byteAt e 0 ≠ 255) (owned : byteAt e 0 / 16 = p.val)
    (line : byteAt e 1 < 64) :
    checkTapEntry p e =
      (some (tapEntryOf ⟨byteAt e 0 % 16, Nat.mod_lt _ (by decide)⟩ ⟨byteAt e 1, line⟩ e).1,
        { written := true
          clamped := (tapEntryOf ⟨byteAt e 0 % 16, Nat.mod_lt _ (by decide)⟩ ⟨byteAt e 1, line⟩ e).2 }) := by
  simp [checkTapEntry, present, owned, asFin_of_lt line]

/-- R18: every entry that is stored has its delay in the read window. -/
theorem checkTapEntry_window {p : Fin 4} {e : List Byte} {x : TapEntry} (h : (checkTapEntry p e).1 = some x) :
    64 ≤ x.delay ∧ x.delay ≤ 131103 := by
  unfold checkTapEntry at h
  dsimp only at h
  split at h
  · cases h
  · split at h
    · cases h
    · split at h
      · cases h
      · cases h
        exact tapEntryOf_window _ _ e

/-- R18, R20: an entry that is stored counts as written, and none is discarded by the check. -/
theorem checkTapEntry_mark (p : Fin 4) (e : List Byte) :
    (checkTapEntry p e).2.written = true ∧ (checkTapEntry p e).2.discarded = false := by
  unfold checkTapEntry
  dsimp only
  split
  · simp
  · split
    · simp
    · split <;> simp

/-- Settles O29: the tests of the check in their order; a stored entry takes its fields from the wire entry. -/
theorem tapEntryIsChecked : Obligations.TapEntryIsChecked := by
  intro p e
  refine ⟨fun vacant => ?vacant, fun present foreign => ?foreign, fun present owned line => ?line,
    fun present owned line => ?valid⟩
  case vacant => simp [checkTapEntry, vacant]
  case foreign => simp [checkTapEntry, present, foreign]
  case line => simp [checkTapEntry, present, owned, asFin_of_le line]
  case valid =>
    have gain : field2 e 6 < 2 ^ 16 := field2_lt e 6
    let channel : Fin 16 := ⟨byteAt e 0 % 16, Nat.mod_lt _ (by decide)⟩
    obtain ⟨low, high⟩ := tapEntryOf_window channel ⟨byteAt e 1, line⟩ e
    refine ⟨_, _, checkTapEntry_of_valid present owned line, rfl,
      tapEntryOf_clamped channel ⟨byteAt e 1, line⟩ e, ?_, rfl, tapEntryOf_delay channel ⟨byteAt e 1, line⟩ e, low, high, ?_, rfl, rfl, rfl, tapEntryOf_gen channel ⟨byteAt e 1, line⟩ e⟩
    · show byteAt e 0 % 16 = byteAt e 0 - 16 * p.val
      omega
    · exact (BitVec.toNat_ofNat ..).trans (Nat.mod_eq_of_lt gain)

end Sys2Proof.Machine
end

section
/-! PROOF. Every step keeps the banks in their roles: a ramp for each ACTIVE entry of a bank that plays and no other (R16 to
R18, R20, R86). -/

namespace Sys2Proof.Machine

open Sys2Proof.Safety

/-! ### Lists of optional members -/

/-- A member of a list of optional members, each changed alike. -/
theorem getD_map_option {α β : Type} (f : α → β) (l : List (Option α)) (i : Nat) :
    (l.map (Option.map f)).getD i none = (l.getD i none).map f := by
  rw [List.getD_eq_getElem?_getD, List.getElem?_map, List.getD_eq_getElem?_getD]
  cases l[i]? <;> rfl

theorem getD_replicate_none {α : Type} (n i : Nat) : (List.replicate n (none : Option α)).getD i none = none := by
  rw [List.getD_eq_getElem?_getD, List.getElem?_replicate]
  split <;> rfl

/-- A member of a list of optional members, one of them changed. -/
theorem getD_modify_option {α : Type} (f : α → α) (l : List (Option α)) (k i : Nat) :
    (l.modify k (Option.map f)).getD i none = if k = i then (l.getD i none).map f else l.getD i none := by
  rw [List.getD_eq_getElem?_getD, List.getElem?_modify, List.getD_eq_getElem?_getD]
  cases l[i]? <;> split <;> rfl

/-! ### The ramps and the roles -/

/-- R81: every ramp of a bank that plays steps. -/
theorem State.stepAllRamps_taps (s : State) (k : BankNo) : s.stepAllRamps.ramps.taps k =
    if s.store.plays k then stepRamps (s.ramps.taps k) else s.ramps.taps k := by
  fin_cases k <;> rfl

@[simp] theorem Ramps.retargetMasters_taps (r : Ramps) (g : Nat → Int) : (r.retargetMasters g).taps = r.taps := rfl

/-- R54: the end of a pass changes the end-ready mark of the table store alone. -/
theorem State.finishUncut_store (s : State) (p : Pass) (swapped : Bool) :
    (s.finishUncut p swapped).store = { s.store with endReady := (s.finishUncut p swapped).store.endReady } :=
  (s.finishPass_store swapped p none).1

theorem State.closePass_store (s : State) (swapped : Bool) :
    (s.closePass swapped).store = { s.store with endReady := (s.closePass swapped).store.endReady } :=
  (s.closePass_rest swapped).2.1

/-- R37: the end of a fade discards the ramps of the bank that is not ACTIVE. -/
theorem State.endFade_taps (s : State) (k : BankNo) :
    s.endFade.ramps.taps k = if k = otherBank s.store.active then noRamps else s.ramps.taps k :=
  Ramps.withTaps_taps _ _ _ _

/-- R85: the ramps of the two banks when a swap takes effect. -/
theorem State.exchangeBanks_taps (s : State) (fade : Fade) (k : BankNo) : (s.exchangeBanks fade).ramps.taps k =
    if k = s.store.active then
      match fade with
      | .exponent x => (s.ramps.taps k).map (Option.map (outgoingRamp x))
      | .cut => noRamps
    else (s.store.bank k).map (Option.map (incomingRamp fade)) := by
  have taps : (s.exchangeBanks fade).ramps.taps k =
      (s.ramps.forSwap s.store.idleBank (s.store.bank s.store.idleBank) fade).taps k := rfl
  unfold Ramps.forSwap at taps
  rw [taps, Ramps.withTaps_taps, Ramps.withTaps_taps, Store.idleBank, otherBank_otherBank]
  by_cases active : k = s.store.active
  · subst active
    exact (if_pos rfl).trans (if_pos rfl).symm
  · rw [if_neg active, if_neg active, if_pos (eq_otherBank_of_ne active), eq_otherBank_of_ne active]

/-! ### Pieces of a bank -/

/-- R22: clearing a range of a bank within it leaves its length. -/
theorem clearRange_length {b : Bank} (full : b.length = 1024) {first n : Nat} (inside : n ≤ 1024 - first) :
    (clearRange b first n).length = 1024 := by
  simp only [clearRange, List.length_append, List.length_take, List.length_replicate, List.length_drop, full]
  omega

/-- R22: an entry of a bank after a range of it was cleared. -/
theorem clearRange_getD {b : Bank} (full : b.length = 1024) {first n : Nat} (inside : n ≤ 1024 - first) (i : Nat) :
    (clearRange b first n).getD i none = if first ≤ i ∧ i < first + n then none else b.getD i none := by
  simp only [clearRange, List.getD_eq_getElem?_getD, List.getElem?_append, List.getElem?_take, List.getElem?_replicate,
    List.getElem?_drop, List.length_take, List.length_replicate, full]
  by_cases before : i < first
  · have outside : ¬(first ≤ i ∧ i < first + n) := by omega
    rw [if_neg outside]
    by_cases present : i < 1024
    · rw [if_pos (by omega), if_pos before]
    · have beyond : b[i]? = none := List.getElem?_eq_none (by omega)
      rw [beyond]
      by_cases cleared : i - min first 1024 < n
      · omega
      · rw [if_neg (by omega), if_neg cleared, List.getElem?_eq_none (by omega)]
  · rw [if_neg (by omega)]
    by_cases cleared : i < first + n
    · rw [if_pos (by omega), if_pos (by omega), if_pos ⟨by omega, cleared⟩]
      rfl
    · rw [if_neg (by omega), if_neg (by omega)]
      by_cases start : first ≤ 1024
      · rw [show first + n + (i - min first 1024 - n) = i by omega]
      · rw [List.getElem?_eq_none (by omega), List.getElem?_eq_none (by omega)]

end Sys2Proof.Machine

namespace Sys2Proof.Safety

open Machine

/-! ### The invariant by its fields -/

/-- What BanksInRole says of the banks, their ramps, the roles and the pointer. -/
structure InRole (bank : BankNo → Bank) (taps : BankNo → List (Option Ramp)) (active : BankNo) (fade : Bool)
    (pointer : Nat) : Prop where
  entries : ∀ k, (bank k).length = 1024
  ramps : ∀ k, (taps k).length = 1024
  played : ∀ k i, k = active ∨ fade = true → ((taps k).getD i none).isSome = ((bank k).getD i none).isSome
  shadow : ∀ k i, k ≠ active → fade = false → (taps k).getD i none = none
  window : ∀ k i e, (bank k).getD i none = some e → 64 ≤ e.delay ∧ e.delay ≤ 131103
  pointer : pointer ≤ 1023

/-- The invariant of a node: what leaves the banks, the ramps, the roles and the pointer leaves the same proposition. -/
def NodeInRole (s : State) : Prop := InRole s.store.bank s.ramps.taps s.store.active s.store.fade s.store.pointer

theorem banksInRole_iff {s : State} : BanksInRole s ↔ NodeInRole s :=
  ⟨fun ⟨e, r, p, s, w, i⟩ => ⟨e, r, p, s, w, i⟩, fun ⟨e, r, p, s, w, i⟩ => ⟨e, r, p, s, w, i⟩⟩

/-- The end-ready mark and the pending swap are no matter of the roles. -/
theorem NodeInRole.congr {s u : State} (h : NodeInRole s) {x : Bool} {w : Option PendingSwap}
    (store : u.store = { s.store with endReady := x, swap := w }) (ramps : u.ramps = s.ramps) : NodeInRole u := by
  unfold NodeInRole
  rw [store, ramps]
  exact h

/-- R19: outside a fade, the SHADOW bank may take any entries within the window. -/
theorem InRole.writeShadow {t : Store} {taps : BankNo → List (Option Ramp)}
    (h : InRole t.bank taps t.active t.fade t.pointer) (fading : t.fade = false) {b : Bank} (full : b.length = 1024)
    (window : ∀ i e, b.getD i none = some e → 64 ≤ e.delay ∧ e.delay ≤ 131103) {pointer : Nat} (inside : pointer ≤ 1023) :
    InRole (t.withBank t.idleBank b).bank taps t.active t.fade pointer := by
  obtain ⟨entries, ramps, played, shadow, windows, _⟩ := h
  refine ⟨fun k => ?_, ramps, fun k i plays => ?_, shadow, fun k i e stored => ?_, inside⟩
  · rw [Store.withBank_bank]
    split
    · exact full
    · exact entries k
  · have active : k = t.active := by simpa [fading] using plays
    rw [Store.withBank_bank, if_neg (active ▸ (otherBank_ne t.active).symm)]
    exact played k i plays
  · rw [Store.withBank_bank] at stored
    split at stored
    · exact window i e stored
    · exact windows k i e stored

/-- The power-on values: both banks VACANT, no ramp. -/
theorem inRole_reset : InRole Store.reset.bank Ramps.reset.taps Store.reset.active Store.reset.fade Store.reset.pointer := by
  have bank : ∀ k, Store.reset.bank k = List.replicate 1024 none := by decide +kernel
  have taps : ∀ k, Ramps.reset.taps k = List.replicate 1024 none := by decide +kernel
  have none : ∀ {α : Type} (i : Nat), (List.replicate 1024 (none : Option α)).getD i none = none :=
    fun i => getD_replicate_none 1024 i
  refine ⟨fun k => ?_, fun k => ?_, fun k i _ => ?_, fun k i _ _ => ?_, fun k i e stored => ?_, by decide⟩
  · rw [bank, List.length_replicate]
  · rw [taps, List.length_replicate]
  · rw [bank, taps, none, none]
    rfl
  · rw [taps, none]
  · rw [bank, none] at stored
    cases stored

section
variable {s : State} (h : NodeInRole s)
include h

/-! ### The boundary -/

/-- R37: after the end of a fade the bank that is not ACTIVE has no ramp. -/
theorem NodeInRole.endFade : NodeInRole s.endFade := by
  obtain ⟨entries, ramps, played, shadow, window, pointer⟩ := h
  refine ⟨entries, fun k => ?_, fun k i plays => ?_, fun k i silent _ => ?_, window, pointer⟩
  · rw [State.endFade_taps]
    split
    · exact List.length_replicate
    · exact ramps k
  · have active : k = s.store.active := plays.elim id nofun
    rw [State.endFade_taps, if_neg (active ▸ (otherBank_ne s.store.active).symm)]
    exact played k i (.inl active)
  · have silent : k ≠ s.store.active := silent
    rw [State.endFade_taps, if_pos (eq_otherBank_of_ne silent)]
    exact getD_replicate_none _ _

/-- R35, R85: the incoming bank has a ramp for each of its entries; the outgoing one keeps its ramps for a fade, and has none
after a CUT. -/
theorem NodeInRole.exchangeBanks (_ : s.store.fade = false) (fade : Fade) : NodeInRole (s.exchangeBanks fade) := by
  obtain ⟨entries, ramps, played, shadow, window, pointer⟩ := h
  have active : (s.exchangeBanks fade).store.active = otherBank s.store.active := rfl
  have fades : (s.exchangeBanks fade).store.fade = (fade != .cut) := rfl
  have incoming : ∀ k i, k ≠ s.store.active → (((s.exchangeBanks fade).ramps.taps k).getD i none).isSome =
      ((s.store.bank k).getD i none).isSome := by
    intro k i other
    rw [State.exchangeBanks_taps, if_neg other, getD_map_option, Option.isSome_map]
  refine ⟨entries, fun k => ?_, fun k i plays => ?_, fun k i other silent => ?_, window, pointer⟩
  · rw [State.exchangeBanks_taps]
    split
    · cases fade with
      | exponent x => simpa using ramps k
      | cut => exact List.length_replicate
    · simpa using entries k
  · by_cases other : k = s.store.active
    · cases fade with
      | exponent x =>
        rw [State.exchangeBanks_taps, if_pos other, getD_map_option, Option.isSome_map]
        exact played k i (.inl other)
      | cut =>
        rw [active, fades] at plays
        have exchanged : k = otherBank s.store.active := by simpa using plays
        exact absurd (other.symm.trans exchanged) (otherBank_ne s.store.active).symm
    · exact incoming k i other
  · rw [fades] at silent
    rw [active] at other
    have cut : fade = .cut := by simpa using silent
    have old : k = s.store.active := by simpa [otherBank_otherBank] using eq_otherBank_of_ne other
    subst cut
    rw [State.exchangeBanks_taps, if_pos old]
    exact getD_replicate_none _ _

theorem NodeInRole.takeSwap (w : PendingSwap) (o : RecordOutcome) (n : Block) : NodeInRole (s.takeSwap w o n) := by
  have exchanged : NodeInRole ((if s.store.fade then s.endFade else s).exchangeBanks w.fade) := by
    split
    · exact h.endFade.exchangeBanks rfl w.fade
    next still => exact h.exchangeBanks (by simpa using still) w.fade
  unfold State.takeSwap
  generalize (if s.store.fade then s.endFade else s).exchangeBanks w.fade = u at exchanged
  exact exchanged.congr (x := u.store.endReady) (w := none) (by simp) (by simp)

theorem NodeInRole.swapAtBoundary (served : List (Fin 4)) (n : Block) : NodeInRole (s.swapAtBoundary served n).1 := by
  have checked : NodeInRole s.fadeCheck := by
    unfold State.fadeCheck
    split
    · exact h.endFade
    · exact h
  unfold State.swapAtBoundary
  split
  · exact checked
  · split
    · exact h.takeSwap _ _ _
    · exact checked

/-- R81: a step of a ramp makes and discards none. -/
theorem NodeInRole.stepAllRamps : NodeInRole s.stepAllRamps := by
  obtain ⟨entries, ramps, played, shadow, window, pointer⟩ := h
  refine ⟨entries, fun k => ?_, fun k i plays => ?_, fun k i other silent => ?_, window, pointer⟩
  · rw [State.stepAllRamps_taps]
    split
    · simpa [stepRamps] using ramps k
    · exact ramps k
  · refine Eq.trans ?_ (played k i plays)
    rw [State.stepAllRamps_taps]
    split
    · rw [stepRamps, getD_map_option, Option.isSome_map]
    · rfl
  · have other : k ≠ s.store.active := other
    have silent : s.store.fade = false := silent
    rw [State.stepAllRamps_taps, if_neg (by simp [Store.plays, other, silent])]
    exact shadow k i other silent

theorem NodeInRole.boundary (b n : Block) (x : Bool) : NodeInRole (s.boundary b n x) := by
  apply State.boundary_phases h
  case judge => exact fun s served n h => h.swapAtBoundary served n
  case close => exact fun s swapped h => h.congr (s.closePass_store swapped) (by simp)
  case start =>
    intro s b h
    have begun : NodeInRole (s.beginPass b) ↔ NodeInRole s.stepAllRamps := by
      unfold NodeInRole State.beginPass
      simp only [State.muteCheck_keeps]
      exact Iff.rfl
    exact begun.2 h.stepAllRamps
  case turn => exact fun s n h => h
  case exchange => exact fun s h => h
  case copy => exact fun s h => h
  case silence => exact fun s h => h
  all_goals intros; simpa [NodeInRole] using ‹_›

theorem NodeInRole.arrival (f : Frame) (g : Bool) : NodeInRole (s.arrival f g) := by
  refine State.arrival_phases h (fun _ _ h => h) (fun _ _ h => h) (fun _ _ h => h) (fun s f h => ?_)
    (fun _ b n x h => h.boundary b n x) (fun s f h => ?_) (fun s f bad h => ?_) fun s h => ?_
  all_goals simpa [NodeInRole] using h

/-! ### Records of the table class -/

/-- R18, R20: a stored entry lies in the window, and the pointer stays an index. -/
theorem NodeInRole.tapWrite (fading : s.store.fade = false) (r : Record) : NodeInRole (s.tapWrite r) := by
  refine State.tableList_keeps (P := NodeInRole) ?_ h
  have loaded : InRole (s.store.loadPointer (field2 r.body 0)).bank s.ramps.taps s.store.active s.store.fade
      (min 1023 (field2 r.body 0)) := by
    obtain ⟨entries, ramps, played, shadow, window, _⟩ := h
    exact ⟨entries, ramps, played, shadow, window, Nat.min_le_left _ _⟩
  have written := takeEntries_inv
    (P := fun t : Store => InRole t.bank s.ramps.taps t.active t.fade t.pointer ∧ t.fade = false)
    (f := tapWriteEntry s.position) ?_ (entriesOf 16 (r.body.drop 4)) 0 (s.store.loadPointer (field2 r.body 0)) {}
    ⟨loaded, fading⟩
  · exact written.1
  · intro t e ⟨inRole, still⟩
    unfold tapWriteEntry
    split
    · exact ⟨inRole, still⟩
    · have stored : ∀ p ≤ 1023, InRole (t.withBank t.idleBank ((t.bank t.idleBank).set t.pointer
          (checkTapEntry s.position e).1)).bank s.ramps.taps t.active t.fade p := by
        intro p inside
        refine inRole.writeShadow still (by simpa using inRole.entries _) (fun i x holds => ?_) inside
        rw [getD_set_of_lt (by rw [inRole.entries]; exact Nat.lt_succ_of_le inRole.pointer)] at holds
        split at holds
        · exact checkTapEntry_window holds
        · exact inRole.window _ i x holds
      simp only [Store.advancePointer, Store.withBank_rest]
      split
      next below =>
        have moved := stored (t.pointer + 1) below
        exact ⟨moved, still⟩
      · have kept := stored t.pointer inRole.pointer
        exact ⟨kept, still⟩

theorem NodeInRole.tapClear (fading : s.store.fade = false) (r : Record) : NodeInRole (s.tapClear r) := by
  refine State.tableList_keeps (P := NodeInRole) ?_ h
  have inside : clearLength (field2 r.body 0) (field2 r.body 2) ≤ 1024 - field2 r.body 0 := Nat.min_le_right _ _
  have full := h.entries s.store.idleBank
  have cleared := h.writeShadow fading (b := clearRange (s.store.bank s.store.idleBank) (field2 r.body 0)
    (clearLength (field2 r.body 0) (field2 r.body 2))) (clearRange_length full inside) (fun i e holds => by
      rw [clearRange_getD full inside] at holds
      split at holds
      · cases holds
      · exact h.window _ i e holds) h.pointer
  simpa [NodeInRole] using cleared

theorem NodeInRole.copyActive (fading : s.store.fade = false) (r : Record) : NodeInRole (s.copyActive r) := by
  refine State.tableList_keeps (P := NodeInRole) ?_ h
  have copied := h.writeShadow fading (h.entries s.store.active) (h.window s.store.active) h.pointer
  simpa [NodeInRole] using copied

end

/-! ### TAP-GAIN -/

/-- R24: a pair gives an ACTIVE entry another gain and its ramp another target. -/
theorem NodeInRole.tapGainEntry (s : State) (e : List Byte) (h : NodeInRole s) : NodeInRole (tapGainEntry s e).1 := by
  unfold Machine.tapGainEntry
  dsimp only
  split
  next x active =>
    obtain ⟨entries, ramps, played, shadow, window, pointer⟩ := h
    have inside : field2 e 0 < (s.store.bank s.store.active).length := by
      by_contra beyond
      rw [List.getD_eq_default _ _ (Nat.le_of_not_lt beyond)] at active
      cases active
    refine ⟨fun k => ?_, fun k => ?_, fun k i plays => ?_, fun k i other silent => ?_, fun k i y stored => ?_, ?_⟩
    · show ((s.store.withBank _ _).bank k).length = 1024
      rw [Store.withBank_bank]
      split
      next same => simpa using entries s.store.active
      · exact entries k
    · show ((Ramps.withTaps _ _ _).taps k).length = 1024
      rw [Ramps.withTaps_taps]
      split
      · simpa using ramps s.store.active
      · exact ramps k
    · have plays : k = s.store.active ∨ s.store.fade = true := by simpa using plays
      show (((Ramps.withTaps _ _ _).taps k).getD i none).isSome = (((s.store.withBank _ _).bank k).getD i none).isSome
      rw [Ramps.withTaps_taps, Store.withBank_bank]
      split
      next same =>
        have old := played k i plays
        rw [same] at old
        rw [getD_modify_option, getD_set_of_lt inside]
        by_cases place : i = field2 e 0
        · subst place
          rw [active] at old
          rw [if_pos rfl, if_pos rfl, Option.isSome_map, old]
          rfl
        · rw [if_neg (Ne.symm place), if_neg place]
          exact old
      · exact played k i plays
    · have other : k ≠ s.store.active := by simpa using other
      show ((Ramps.withTaps _ _ _).taps k).getD i none = none
      rw [Ramps.withTaps_taps, if_neg other]
      exact shadow k i other (by simpa using silent)
    · have stored : ((s.store.withBank _ _).bank k).getD i none = some y := stored
      rw [Store.withBank_bank] at stored
      split at stored
      · rw [getD_set_of_lt inside] at stored
        split at stored
        · cases stored
          exact window _ _ x active
        · exact window _ i y stored
      · exact window k i y stored
    · show (s.store.withBank _ _).pointer ≤ 1023
      simpa using pointer
  · exact h

theorem NodeInRole.masterGainEntry (s : State) (e : List Byte) (h : NodeInRole s) :
    NodeInRole (masterGainEntry s e).1 := by
  unfold Machine.masterGainEntry
  split
  · exact h
  · dsimp only
    split <;> exact h

theorem NodeInRole.overrideEntry (m : OverrideMode) (line : Fin 64) (block : Bool) (s : State) (e : List Byte)
    (h : NodeInRole s) : NodeInRole (overrideEntry m line block s e).1 := by
  unfold Machine.overrideEntry
  split
  · exact h
  · exact h

/-- Settles O57: the roles change only with the ramps of both banks; the SHADOW bank is written only outside a fade, where no
ramp of it is there to agree. -/
theorem stepKeepsBanksInRole : Obligations.StepKeepsBanksInRole := by
  intro s t inRole steps
  refine banksInRole_iff.2 (step_keeps (P := NodeInRole) (fun c s t hs executes => ?_) (fun s q hs => hs)
    (banksInRole_iff.1 inRole) steps)
  apply exec_keeps executes hs
  case power => exact fun p => inRole_reset
  case assert => exact inRole_reset
  case release => exact fun p => hs
  case arrival => exact hs.arrival
  case finishing =>
    unfold State.completeFinishing
    split
    · exact NodeInRole.congr hs (s.finishUncut_store _ false) (by simp)
    · exact hs
  case tapWrite => exact hs.tapWrite
  case tapClear => exact hs.tapClear
  case copyActive => exact hs.copyActive
  case swap =>
    intro r
    unfold State.swapRecord
    split
    · exact hs
    · refine State.tableList_keeps (P := NodeInRole) ?_ hs
      split <;> exact hs
  case outputMap => exact fun r => State.tableList_keeps (P := NodeInRole) hs hs
  case tapGain =>
    exact fun r => State.liveList_keeps (P := NodeInRole)
      (takeEntries_inv (P := NodeInRole) NodeInRole.tapGainEntry _ _ _ _ hs) hs
  case masterGain =>
    exact fun r => State.liveList_keeps (P := NodeInRole)
      (takeEntries_inv (P := NodeInRole) NodeInRole.masterGainEntry _ _ _ _ hs) hs
  case override =>
    intro r
    refine State.liveList_keeps (P := NodeInRole) ?_ hs
    split
    · exact hs
    · exact takeEntries_inv (P := NodeInRole) (NodeInRole.overrideEntry _ _ _) _ _ _ _ hs
  case rampSet => exact fun r => State.liveList_keeps (P := NodeInRole) hs hs
  case cancelSwap =>
    intro r
    refine State.liveList_keeps (P := NodeInRole) ?_ hs
    split
    · exact hs
    · exact NodeInRole.congr hs (x := s.store.endReady) (w := none) (by simp) (by simp)
  case mute =>
    intro r
    unfold State.mute
    split
    · simpa [NodeInRole] using hs
    · split <;> exact hs
    all_goals exact hs
  case run =>
    intro r
    unfold State.runNode
    split <;> simpa [NodeInRole, State.play] using hs
  case restart =>
    unfold State.restart
    split
    · exact hs
    · dsimp only
      split
      · simpa [NodeInRole, State.restartBlocks] using inRole_reset
      · exact hs
  all_goals intros; simpa [NodeInRole] using hs

end Sys2Proof.Safety
end

section
/-! PROOF. Every step keeps the pass state with the current pass, and the refresh timer with the memory state (R41, R125, R128,
R136). -/

namespace Sys2Proof.Machine

open Sys2Proof.Safety

/-! ### The tap engine between two events of a pass -/

/-- R41: the pass state is IDLE just when there is no current pass. -/
def TapEngine.Matches (t : TapEngine) : Prop := t.pass = none ↔ t.state = .idle

theorem TapEngine.matches_of_running {t : TapEngine} (pass : t.pass ≠ none) (state : t.state ≠ .idle) : t.Matches :=
  ⟨fun h => absurd h pass, fun h => absurd h state⟩

/-- R50: the end of the tap stage takes a pass in TAPPING to FINISHING. -/
theorem TapEngine.endTapStage_matches {t : TapEngine} (h : t.Matches) : t.endTapStage.Matches := by
  unfold TapEngine.endTapStage
  split
  next p state pass =>
    split
    · exact TapEngine.matches_of_running (by simp [pass]) (by simp)
    · exact h
  · exact h

/-- R44: the write bursts of a pass take it to TAPPING. -/
theorem TapEngine.writeServed_matches {t : TapEngine} (h : t.Matches) (serial : Nat) : (t.writeServed serial).Matches := by
  unfold TapEngine.writeServed
  split
  next p state pass =>
    split
    · dsimp only
      split
      · exact TapEngine.endTapStage_matches (TapEngine.matches_of_running (by simp [TapEngine.enterTapping])
          (by simp [TapEngine.enterTapping]))
      · exact TapEngine.matches_of_running (by simp) (by simp [state])
    · exact h
  · exact h

/-- R47, R49: the words of a read change the pass that they belong to. -/
theorem TapEngine.readReturned_matches {t : TapEngine} (h : t.Matches) (q : BurstRequest) (words : List Word) :
    (t.readReturned q words).Matches := by
  unfold TapEngine.readReturned
  split
  next p state pass =>
    split
    · refine TapEngine.endTapStage_matches ?_
      split
      · exact h
      · exact TapEngine.matches_of_running (by simp [TapEngine.monitorReturned])
          (by simp [TapEngine.monitorReturned, state])
      · unfold TapEngine.tapReturned
        split
        · exact h
        · dsimp only
          split
          · exact TapEngine.matches_of_running (by simp) (by simp [state])
          · exact TapEngine.matches_of_running (by simp) (by simp [state])
    · exact h
  · exact h

/-- R46 to R48: a read handed over leaves the pass in TAPPING. -/
theorem TapEngine.tapBurst_pass {t t' : TapEngine} {p : Pass} {store : Store} {q : BurstRequest}
    (h : t.tapBurst p store = some (q, t')) : t'.pass ≠ none ∧ t'.state = t.state := by
  unfold TapEngine.tapBurst at h
  split at h
  · cases h
    exact ⟨by simp, rfl⟩
  · split at h
    · cases h
      exact ⟨by simp, rfl⟩
    · split at h
      · cases h
        exact ⟨by simp, rfl⟩
      · cases h

/-- R44, R45: a burst handed over leaves the pass state, and a current pass if there was one. -/
theorem TapEngine.nextBurst_matches {t t' : TapEngine} (h : t.Matches) {store : Store} {q : BurstRequest}
    (next : t.nextBurst store = some (q, t')) : t'.Matches := by
  unfold TapEngine.nextBurst at next
  split at next
  next x ending =>
    cases next
    unfold TapEngine.endingBurst at ending
    split at ending
    next e after _ =>
      obtain ⟨w, _, result⟩ := Option.map_eq_some_iff.1 ending
      cases result
      exact h
    · cases ending
  · split at next
    · cases next
    next p pass =>
      split at next
      next state =>
        split at next
        · cases next
          exact TapEngine.matches_of_running (by simp) (by simp [state])
        · cases next
      next state =>
        obtain ⟨busy, same⟩ := TapEngine.tapBurst_pass next
        exact TapEngine.matches_of_running busy (by simp [same, state])
      · cases next
      · cases next

/-- R57, R58: an abandonment leaves the tap engine without a pass. -/
theorem State.abandonPass_matches {s : State} (h : s.tap.Matches) : s.abandonPass.tap.Matches := by
  obtain ⟨pass, _, _, idle⟩ := s.abandonPass_tap
  exact ⟨fun _ => idle h, fun _ => pass⟩

end Sys2Proof.Machine

namespace Sys2Proof.Safety

open Machine

/-! ### The pass state -/

/-- The invariant of a node: what leaves the tap engine leaves the same proposition. -/
def NodeMatches (s : State) : Prop := s.tap.Matches

section
variable {s : State} (h : NodeMatches s)
include h

theorem NodeMatches.boundary (b n : Block) (x : Bool) : NodeMatches (s.boundary b n x) := by
  apply State.boundary_phases h
  case renumber => exact fun s b n h => State.abandonPass_matches h
  case close =>
    intro s swapped h
    obtain ⟨pass, state⟩ := s.closePass_tap swapped h
    exact ⟨fun _ => state, fun _ => pass⟩
  case start =>
    intro s b h
    refine TapEngine.matches_of_running ?_ ?_ <;> simp [State.beginPass]
  case reap => exact fun s h => h
  case noStart => exact fun s n h => h
  all_goals intros; simpa [NodeMatches] using ‹_›

theorem NodeMatches.loseLink : NodeMatches s.loseLink := by
  unfold State.loseLink
  refine (State.abandonPass_matches (s := State.withOut _ _) ?_)
  exact h

theorem NodeMatches.takePosition (f : Option Frame) (bad : Bool) : NodeMatches (s.takePosition f bad) := by
  simpa [NodeMatches] using h

theorem NodeMatches.arrival (f : Frame) (g : Bool) : NodeMatches (s.arrival f g) := by
  refine State.arrival_phases h (fun _ _ h => h) (fun _ _ h => h) (fun _ _ h => h) (fun s f h => ?_)
    (fun _ b n x h => h.boundary b n x) (fun s f h => ?_) (fun s f bad h => h.takePosition f bad) fun s h => h.loseLink
  all_goals simpa [NodeMatches] using h

theorem NodeMatches.requestBurst : NodeMatches s.requestBurst := by
  unfold State.requestBurst
  split
  · split
    next q t next => exact TapEngine.nextBurst_matches h next
    · exact h
  · exact h

theorem NodeMatches.endBurst : NodeMatches s.endBurst := by
  unfold State.endBurst
  split
  next q rest service queue =>
    have accessed : (s.access q).tap.Matches := by
      unfold State.access
      split
      · exact TapEngine.writeServed_matches h _
      · exact TapEngine.readReturned_matches h _ _
    exact accessed
  · exact h

end

/-- R41: only the start and the end of a pass change whether there is one, and both set the pass state. -/
theorem step_keeps_passMatchesState {s t : State} (hs : PassMatchesState s) (steps : step s = .next t) :
    PassMatchesState t := by
  refine step_keeps (P := NodeMatches) (fun c s t hs executes => ?_) (fun s q hs => hs) hs steps
  have reset : TapEngine.reset.Matches := ⟨fun _ => rfl, fun _ => rfl⟩
  apply exec_keeps executes hs
  case power => exact fun p => reset
  case assert => exact reset
  case arrival => exact hs.arrival
  case gap => exact State.gapExpiry_phases hs (fun _ _ h => h) (fun _ h => h.loseLink) fun _ f bad h => h.takePosition f bad
  case request => exact hs.requestBurst
  case burst => exact hs.endBurst
  case finishing =>
    unfold State.completeFinishing
    split
    · refine ⟨fun _ => ?_, fun _ => ?_⟩ <;> simp [State.finishUncut, State.finishPass_tap, State.reapEnding]
    · exact hs
  case statusRead =>
    intro r
    unfold State.statusRead
    split
    · exact hs
    · refine State.liveList_keeps (P := NodeMatches) ?_ hs
      dsimp only
      split <;> simpa [NodeMatches, State.clearCounters, TapEngine.Matches] using hs
  case restart =>
    unfold State.restart
    split
    · exact hs
    next r rest restarts =>
      dsimp only
      split
      · have abandoned := State.abandonPass_matches (s := s.withRecords { s.records with restarts := rest }) hs
        simpa [NodeMatches, State.restartBlocks, TapEngine.Matches] using abandoned
      · exact hs
  all_goals intros; simpa [NodeMatches] using hs

/-! ### The refresh timer -/

/-- What TimerFollowsState says of the timer, the memory state, the refreshes owed and those that SETTING still serves. -/
structure TimerFollows (timer : RefreshTimer) (state : MemState) (owed setting : Nat) : Prop where
  stopped : timer = .stopped ↔ state = .uninit ∨ state = .initializing ∨ state = .held ∨ state = .leaving
  bound : owed ≤ 8
  held : timer = .expired → owed = 8
  serves : setting ≤ owed ∧ (state ≠ .setting → setting = 0)

/-- The invariant of a node: what leaves the four fields leaves the same proposition. -/
def NodeTimer (s : State) : Prop := TimerFollows s.mem.timer s.mem.state s.mem.owed s.mem.settingRefreshes

theorem timerFollowsState_iff {s : State} : TimerFollowsState s ↔ NodeTimer s :=
  ⟨fun ⟨t, o, h, r⟩ => ⟨t, o, h, r⟩, fun ⟨t, o, h, r⟩ => ⟨t, o, h, r⟩⟩

/-- R126, R136: the memory arrives at READY, or goes on to ENTERING, with its timer running. -/
theorem timerFollows_arrived (m : MemController) {owed : Nat} (bound : owed ≤ 8) :
    TimerFollows m.arriveReady.timer m.arriveReady.state owed m.arriveReady.settingRefreshes := by
  refine ⟨?_, bound, nofun, Nat.zero_le _, fun _ => rfl⟩
  simp only [MemController.arriveReady]
  split <;> simp

theorem timerFollows_reset : TimerFollows MemController.reset.timer MemController.reset.state MemController.reset.owed
    MemController.reset.settingRefreshes :=
  ⟨by decide, by decide, nofun, by decide⟩

section
variable {s : State} (h : NodeTimer s)
include h

/-- R128: DRAINING, in which the timer runs, ends in SETTING, which serves the refreshes owed then. -/
theorem NodeTimer.advanceMem : NodeTimer s.advanceMem := by
  obtain ⟨stopped, owed, held, setting, elsewhere⟩ := h
  have goesOn := s.advanceMem_goesOn
  have rest := goesOn.rest
  have timer : s.advanceMem.mem.timer = s.mem.timer := by rw [rest]
  have count : s.advanceMem.mem.owed = s.mem.owed := by rw [rest]
  unfold NodeTimer
  rw [timer, count]
  by_cases drained : s.mem.state = .draining ∧ NoPass s.advanceMem
  · obtain ⟨state, refreshes⟩ := goesOn.drained drained.1 drained.2
    rw [state, refreshes]
    exact ⟨by simpa [drained.1] using stopped, owed, held, le_refl _, by simp⟩
  · obtain ⟨state, refreshes⟩ := goesOn.kept (by tauto)
    rw [state, refreshes]
    exact ⟨stopped, owed, held, setting, elsewhere⟩

/-- R130, R131: a WAKE takes ENTERING to READY and HELD to LEAVING, and the timer with them. -/
theorem NodeTimer.wakeMem : TimerFollows s.mem.wake.timer s.mem.wake.state s.mem.wake.owed s.mem.wake.settingRefreshes := by
  obtain ⟨stopped, owed, held, setting, elsewhere⟩ := h
  have timer := s.mem.wake_keeps
  have state : s.mem.wake.state =
      if s.mem.state = .entering then .ready else if s.mem.state = .held then .leaving else s.mem.state := by
    unfold MemController.wake
    dsimp only
    cases s.mem.state with
    | entering => dsimp only; split <;> rfl
    | _ => rfl
  simp only [timer, state]
  by_cases entering : s.mem.state = .entering
  · exact ⟨by simpa [entering] using stopped, owed, held, setting, fun _ => elsewhere (by simp [entering])⟩
  · by_cases asleep : s.mem.state = .held
    · exact ⟨by simpa [asleep] using stopped, owed, held, setting, fun _ => elsewhere (by simp [asleep])⟩
    · exact ⟨by simpa [entering, asleep] using stopped, owed, held, setting, by simpa [entering, asleep] using elsewhere⟩

/-! ### Refreshes -/

/-- R136: an expiry at a count of eight is held; else it raises the count. -/
theorem NodeTimer.refreshExpiry : NodeTimer s.refreshExpiry := by
  obtain ⟨stopped, owed, held, setting, elsewhere⟩ := h
  unfold State.refreshExpiry
  split
  next i running =>
    have serving : ¬(s.mem.state = .uninit ∨ s.mem.state = .initializing ∨ s.mem.state = .held ∨
        s.mem.state = .leaving) := fun state => by simpa [running] using stopped.2 state
    refine NodeTimer.advanceMem ?_
    unfold NodeTimer MemController.refreshDue
    simp only [State.withMem_mem, running]
    split
    next below => exact ⟨by simpa using serving, below, nofun, Nat.le_succ_of_le setting, elsewhere⟩
    next full => exact ⟨by simpa using serving, owed, fun _ => by dsimp only; omega, setting, elsewhere⟩
  all_goals exact ⟨stopped, owed, held, setting, elsewhere⟩

/-- R136, R137: the end of a refresh takes a held expiry. -/
theorem NodeTimer.endRefresh : NodeTimer s.endRefresh := by
  obtain ⟨stopped, owed, held, setting, elsewhere⟩ := h
  unfold State.endRefresh
  split
  · refine NodeTimer.advanceMem ?_
    unfold NodeTimer MemController.refreshEnd
    simp only [State.withMem_mem]
    cases timer : s.mem.timer with
    | expired =>
      have full := held timer
      refine ⟨by simpa [timer] using stopped, ?_, nofun, ?_, fun other => ?_⟩
      · show s.mem.owed - 1 + 1 ≤ 8
        omega
      · show s.mem.settingRefreshes - 1 ≤ s.mem.owed - 1 + 1
        omega
      · show s.mem.settingRefreshes - 1 = 0
        rw [elsewhere other]
    | _ =>
      refine ⟨by simpa [timer] using stopped, ?_, nofun, ?_, fun other => ?_⟩
      · show s.mem.owed - 1 ≤ 8
        omega
      · show s.mem.settingRefreshes - 1 ≤ s.mem.owed - 1
        omega
      · show s.mem.settingRefreshes - 1 = 0
        rw [elsewhere other]
  · exact ⟨stopped, owed, held, setting, elsewhere⟩

/-! ### The sequences of the memory -/

theorem NodeTimer.memorySetup (r : Record) : NodeTimer (s.memorySetup r) := by
  have apply : ∀ count i l, NodeTimer (s.applySetup r count i l) := by
    intro count i l
    obtain ⟨stopped, owed, held, setting, elsewhere⟩ := h
    unfold State.applySetup
    dsimp only
    split
    next state =>
      show TimerFollows s.mem.timer .initializing s.mem.owed s.mem.settingRefreshes
      exact ⟨by simpa [state] using stopped, owed, held, setting, fun _ => elsewhere (by simp [state])⟩
    next state =>
      refine NodeTimer.advanceMem ⟨by simpa [state] using stopped, owed, held, setting, fun _ => elsewhere (by simp [state])⟩
    all_goals exact ⟨stopped, owed, held, setting, elsewhere⟩
  unfold State.memorySetup
  split
  · exact h
  · refine State.tableList_keeps (P := NodeTimer) ?_ h
    split
    · exact apply _ _ _
    · exact apply _ _ _
    · exact h

theorem NodeTimer.quiesce (r : Record) : NodeTimer (s.quiesce r) := by
  obtain ⟨stopped, owed, held, setting, elsewhere⟩ := h
  unfold State.quiesce
  split
  · refine NodeTimer.advanceMem ?_
    by_cases ready : s.mem.state = .ready
    · have quiet : TimerFollows s.mem.timer .entering s.mem.owed s.mem.settingRefreshes :=
        ⟨by simpa [ready] using stopped, owed, held, setting, fun _ => elsewhere (by simp [ready])⟩
      simpa [NodeTimer, MemController.quiesce, ready] using quiet
    · have kept : TimerFollows s.mem.timer s.mem.state s.mem.owed s.mem.settingRefreshes :=
        ⟨stopped, owed, held, setting, elsewhere⟩
      simpa [NodeTimer, MemController.quiesce, ready] using kept
  all_goals exact ⟨stopped, owed, held, setting, elsewhere⟩

theorem NodeTimer.wake (r : Record) : NodeTimer (s.wake r) := by
  unfold State.wake
  split
  · refine NodeTimer.advanceMem ?_
    have woken := h.wakeMem
    simpa only [NodeTimer, State.completeLive_keeps, State.withMem_mem] using woken
  all_goals exact h

theorem NodeTimer.boundary (b n : Block) (x : Bool) : NodeTimer (s.boundary b n x) := by
  apply State.boundary_phases h
  case advance => exact fun s h => h.advanceMem
  case turn => exact fun s n h => h
  case exchange => exact fun s h => h
  case copy => exact fun s h => h
  case silence => exact fun s h => h
  all_goals intros; simpa [NodeTimer] using ‹_›

theorem NodeTimer.loseLink : NodeTimer s.loseLink := by
  unfold State.loseLink
  refine NodeTimer.advanceMem ?_
  simpa [NodeTimer] using h

theorem NodeTimer.takePosition (f : Option Frame) (bad : Bool) : NodeTimer (s.takePosition f bad) := by
  simpa [NodeTimer] using h

theorem NodeTimer.arrival (f : Frame) (g : Bool) : NodeTimer (s.arrival f g) := by
  refine State.arrival_phases h (fun _ _ h => h) (fun _ _ h => h) (fun _ _ h => h) (fun s f h => ?_)
    (fun _ b n x h => h.boundary b n x) (fun s f h => ?_) (fun s f bad h => h.takePosition f bad) fun s h => h.loseLink
  all_goals simpa [NodeTimer] using h

end

/-- R125, R136: each change of the memory state keeps the timer with it. -/
theorem step_keeps_timerFollowsState {s t : State} (hs : TimerFollowsState s) (steps : step s = .next t) :
    TimerFollowsState t := by
  refine timerFollowsState_iff.2 (step_keeps (P := NodeTimer) (fun c s t hs executes => ?_) (fun s q hs => hs)
    (timerFollowsState_iff.1 hs) steps)
  apply exec_keeps executes hs
  case power => exact fun p => timerFollows_reset
  case assert => exact timerFollows_reset
  case arrival => exact hs.arrival
  case gap => exact State.gapExpiry_phases hs (fun _ _ h => h) (fun _ h => h.loseLink) fun _ f bad h => h.takePosition f bad
  case request =>
    unfold State.requestBurst
    split
    · split
      · refine NodeTimer.advanceMem ?_
        exact hs
      · exact hs
    · exact hs
  case burst =>
    unfold State.endBurst
    split
    · refine NodeTimer.advanceMem ?_
      simpa [NodeTimer, MemController.openFor] using hs
    · exact hs
  case finishing =>
    unfold State.completeFinishing
    split
    · refine NodeTimer.advanceMem ?_
      simpa [NodeTimer] using hs
    · exact hs
  case due => exact hs.refreshExpiry
  case refresh => exact hs.endRefresh
  case initialized =>
    unfold State.endInitialization
    split
    · refine NodeTimer.advanceMem ?_
      simpa [NodeTimer] using timerFollows_arrived s.mem (Nat.zero_le 8)
    · exact hs
  case modeSet =>
    unfold State.endModeSet
    split
    · refine NodeTimer.advanceMem ?_
      have arrived : NodeTimer (s.withMem s.mem.arriveReady) := timerFollows_arrived s.mem hs.bound
      simpa [NodeTimer] using arrived
    · exact hs
  case entering =>
    unfold State.endEntering
    split
    next entering =>
      have none := hs.serves.2 (by simp [entering.1])
      exact ⟨by simp [MemController.enterSelfRefresh], Nat.zero_le _, nofun, none.le, fun _ => none⟩
    · exact hs
  case leaving =>
    unfold State.endLeaving
    split
    · refine NodeTimer.advanceMem ?_
      simpa [NodeTimer] using timerFollows_arrived s.mem (Nat.zero_le 8)
    · exact hs
  case memorySetup => exact hs.memorySetup
  case quiesce => exact hs.quiesce
  case wake => exact hs.wake
  case restart =>
    unfold State.restart
    split
    · exact hs
    · dsimp only
      split
      · refine NodeTimer.advanceMem ?_
        simpa [NodeTimer, State.restartBlocks] using hs.wakeMem
      · exact hs
  all_goals intros; simpa [NodeTimer] using hs

/-- Settles O58: the two invariants, each kept on its own. -/
theorem stepKeepsPassAndTimer : Obligations.StepKeepsPassAndTimer :=
  fun _ _ pass timer steps => ⟨step_keeps_passMatchesState pass steps, step_keeps_timerFollowsState timer steps⟩

end Sys2Proof.Safety
end

section
/-! PROOF. What a position leaves of the link port, and: every step keeps the positions of the block in progress filled in
order, with as many recorded rows (R142, R147, R149, R150, log 13, log 37). -/

namespace Sys2Proof.Machine

open Sys2Proof.Safety

/-! ### A position -/

/-- R153: the handover empties the cell being received, and may count it damaged. -/
theorem State.handover_link (s : State) : s.handover.link = { s.link with
    cellRx := none, damagedCells := s.handover.link.damagedCells } := by
  unfold State.handover
  split
  next none => rw [← none]
  · dsimp only
    split <;> simp

/-- R144, R147, R149 to R154: what a position leaves of the link port. -/
theorem State.takePosition_link (s : State) (f : Option Frame) (bad : Bool) : (s.takePosition f bad).link = { s.link with
    filling := (s.takePosition f bad).link.filling
    held := s.captured f bad
    cellRx := if s.link.expected = 31 then none else s.link.receive s.link.expected
      (match f with
       | none => List.replicate 8 0
       | some f => f.controlRow) bad
    cellTx := if s.link.expected = 31 then none else s.link.cellTx
    expected := (s.link.expected + 1) % 32
    lostZero := s.link.lostZero || (s.link.expected == 0 && bad)
    damagedCells := (s.takePosition f bad).link.damagedCells } := by
  unfold State.takePosition
  dsimp only
  by_cases last : s.link.expected = 31
  · simp only [if_pos last]
    rw [State.handover_link]
    rfl
  · simp only [if_neg last]
    rfl

/-- R145, R146: a boundary drops the recorded rows of the block it closes, and hands them on. -/
theorem State.boundary_out (s : State) (b n : Block) (x : Bool) :
    (s.boundary b n x).out = (s.boundaryReady b n x).out := by
  rw [State.boundary_eq]
  split <;> simp

theorem State.boundary_recording (s : State) (b n : Block) (x : Bool) : (s.boundary b n x).out.recording = [] := by
  obtain ⟨_, _, _, _, _, _, _, _, _, _, recording, _⟩ := s.boundaryReady_keeps b n x
  rw [State.boundary_out, recording]

/-! ### A loss of the link -/

@[simp] theorem State.abandonPass_recording (s : State) : s.abandonPass.out.recording = s.out.recording := by
  obtain ⟨_, _, _, recording, _⟩ := s.abandonPass_out
  exact recording

/-- R148: what a loss leaves of the link port. -/
theorem State.loseLink_link (s : State) : s.loseLink.link = { s.link with
    state := .lost, gapTimer := .stopped, expected := (s.link.expected + 1) % 32, lostZero := false
    filling := [], complete := [], cellRx := none, cellTx := none
    lossEvents := countUp s.link.lossEvents 1, damagedCells := countUp s.link.damagedCells 1 } := by
  simp [State.loseLink]

theorem State.loseLink_recording (s : State) : s.loseLink.out.recording = [] := by simp [State.loseLink]

/-! ### A notice that is placed -/

@[simp] theorem State.placeNotice_linkKeeps (s : State) (f : Frame) :
    (s.placeNotice f).link.expected = s.link.expected ∧ (s.placeNotice f).link.state = s.link.state ∧
    (s.placeNotice f).link.filling = s.link.filling ∧ (s.placeNotice f).link.lostZero = s.link.lostZero ∧
    (s.placeNotice f).link.badRun = s.link.badRun ∧ (s.placeNotice f).link.gapTimer = s.link.gapTimer ∧
    (s.placeNotice f).link.complete = s.link.complete := by
  refine ⟨?_, ?_, ?_, ?_, ?_, ?_, ?_⟩ <;> rw [State.placeNotice_link]

end Sys2Proof.Machine

namespace Sys2Proof.Safety

open Machine

/-! ### The invariant -/

/-- What BlockFills says of the link port and of the count of recorded rows. -/
structure LinkFills (l : Link) (rows : Nat) : Prop where
  expected : l.expected < 32
  badRun : l.state = .locked → l.badRun ≤ 2
  timer : l.gapTimer = .stopped ↔ l.state ≠ .locked
  filling : l.state = .locked → l.lostZero = false → l.filling.length = if l.expected = 0 then 32 else l.expected
  lost : l.lostZero = true → l.state = .locked ∧ l.filling.length = 32
  recording : rows = l.filling.length
  complete : l.complete.length = 0 ∨ l.complete.length = 32

/-- The invariant of a node: what leaves the link port and the recorded rows leaves the same proposition. -/
def NodeFills (s : State) : Prop := LinkFills s.link s.out.recording.length

theorem blockFills_iff {s : State} : BlockFills s ↔ NodeFills s :=
  ⟨fun ⟨e, b, t, f, l, r, c⟩ => ⟨e, b, t, f, l, r, c⟩, fun ⟨e, b, t, f, l, r, c⟩ => ⟨e, b, t, f, l, r, c⟩⟩

/-- A LOCKED link port about to fill its expected position, damaged or not: the rows that stand before it. -/
structure ReadyToFill (l : Link) (rows : Nat) (bad : Bool) : Prop where
  state : l.state = .locked
  expected : l.expected < 32
  badRun : l.badRun ≤ 2
  timer : l.gapTimer ≠ .stopped
  filling : l.lostZero = false → l.filling.length = if l.expected = 0 ∧ bad = true then 32 else l.expected
  lost : l.lostZero = true → l.filling.length = 32
  recording : rows = l.filling.length
  complete : l.complete.length = 0 ∨ l.complete.length = 32

/-- R147, R149: a position fills its place in the block; position 0 of a lost frame 0 replaces a row of the 32 that stand. -/
theorem nodeFills_takePosition {s : State} {f : Option Frame} {bad : Bool}
    (h : ReadyToFill s.link s.out.recording.length bad) : NodeFills (s.takePosition f bad) := by
  obtain ⟨state, expected, badRun, timer, filling, lost, recording, complete⟩ := h
  have rows := s.takePosition_recording f bad recording
  have filled := s.takePosition_filling f bad
  unfold NodeFills
  rw [rows]
  rw [s.takePosition_link f bad]
  generalize (s.takePosition f bad).link.filling = x at filled ⊢
  have length : x.length = if s.link.expected = 0 ∧ bad = true then s.link.filling.length
      else if s.link.lostZero = true then s.link.filling.length else s.link.filling.length + 1 := by
    rw [filled]
    split
    · simp
    · split <;> simp
  refine ⟨Nat.mod_lt _ (by decide), fun _ => badRun, ?_, fun _ present => ?_, fun zeroLost => ⟨state, ?_⟩, rfl, complete⟩
  · simp [state, timer]
  · have present : s.link.lostZero = false ∧ ¬(s.link.expected = 0 ∧ bad = true) := by simpa using present
    have before := filling present.1
    rw [if_neg present.2] at before
    show x.length = if (s.link.expected + 1) % 32 = 0 then 32 else (s.link.expected + 1) % 32
    rw [length, if_neg present.2, if_neg (by simp [present.1]), before]
    split <;> omega
  · have zeroLost : s.link.lostZero = true ∨ (s.link.expected = 0 ∧ bad = true) := by simpa using zeroLost
    show x.length = 32
    rw [length]
    cases lostZero : s.link.lostZero with
    | true => simpa using lost lostZero
    | false =>
      have zero : s.link.expected = 0 ∧ bad = true := by simpa [lostZero] using zeroLost
      rw [if_pos zero]
      simpa [zero] using filling lostZero

/-- R142, R144: the timer restarts and a bad position is counted, in LOCKED. -/
theorem LinkFills.restarted {l : Link} {rows : Nat} (h : LinkFills l rows) (state : l.state = .locked) {timer : GapTimer}
    (runs : timer ≠ .stopped) (damaged missing : Half) :
    LinkFills { l with gapTimer := timer, damagedFrames := damaged, missingFrames := missing } rows := by
  obtain ⟨expected, badRun, _, filling, lost, recording, complete⟩ := h
  exact ⟨expected, badRun, by simp [runs, state], filling, lost, recording, complete⟩

/-- A damaged or missing position may be filled in any LOCKED block. -/
theorem NodeFills.readyToFill_bad {s : State} (h : NodeFills s) (state : s.link.state = .locked) :
    ReadyToFill s.link s.out.recording.length true := by
  obtain ⟨expected, badRun, timer, filling, lost, recording, complete⟩ := h
  exact ⟨state, expected, badRun state, by simp [timer, state], by simpa using filling state, fun l => (lost l).2, recording,
    complete⟩

/-- R148: after a loss no position is filled. -/
theorem NodeFills.loseLink (s : State) : NodeFills s.loseLink := by
  unfold NodeFills
  rw [State.loseLink_link, State.loseLink_recording]
  exact ⟨Nat.mod_lt _ (by decide), nofun, by simp, nofun, nofun, rfl, .inl rfl⟩

section
variable {s : State} (h : NodeFills s)
include h

/-- R144: a damaged or missing position, of a link port that keeps the block in progress. -/
theorem NodeFills.badPosition (state : s.link.state = .locked) (f : Option Frame) : NodeFills (s.badPosition f) := by
  unfold State.badPosition
  dsimp only
  split
  · exact NodeFills.loseLink _
  next below =>
    obtain ⟨_, expected, _, timer, filling, lost, recording, complete⟩ := h.readyToFill_bad state
    refine nodeFills_takePosition ?_
    refine ⟨state, expected, ?_, timer, filling, lost, recording, complete⟩
    exact Nat.le_of_lt_succ (Nat.lt_of_not_le below)

/-- R142, R144: a missing position. -/
theorem NodeFills.gapExpiry : NodeFills s.gapExpiry := by
  unfold State.gapExpiry
  split
  next state =>
    refine NodeFills.badPosition ?_ ?_ _
    · exact h.restarted state (by simp) _ _
    · exact state
  · exact h
  · exact h

/-- R143: an arrival in SEEKING begins a block at its position 0, or leaves the link port. -/
theorem NodeFills.seek (f : Frame) : NodeFills (s.seek f) := by
  unfold State.seek
  split
  · refine nodeFills_takePosition ?_
    refine ⟨?_, ?_, ?_, ?_, ?_, ?_, ?_, ?_⟩ <;> simp [State.copyChannels]
  · exact h

/-- R145, R146: a boundary finds 32 rows, hands them on and takes its frame as position 0. -/
theorem NodeFills.takeBoundary (state : s.link.state = .locked) (first : s.link.expected = 0) (f : Frame) (b n : Block)
    (x : Bool) : NodeFills (((s.boundary b n x).placeNotice f).takePosition (some f) false) := by
  obtain ⟨_, _, timer, filling, lost, _, _⟩ := h
  have full : s.link.filling.length = 32 := by
    cases zeroLost : s.link.lostZero with
    | true => exact (lost zeroLost).2
    | false => simpa [first] using filling state zeroLost
  refine nodeFills_takePosition ?_
  refine ⟨?_, ?_, ?_, ?_, ?_, ?_, ?_, ?_⟩ <;> simp [State.boundary_link, State.boundary_recording, state, first, full, timer]

theorem NodeFills.lockedArrival (state : s.link.state = .locked) (f : Frame) : NodeFills (s.lockedArrival f) := by
  have restarted : NodeFills (s.withLink { s.link with gapTimer := .oneAndHalfPeriods }) :=
    h.restarted state (by simp) s.link.damagedFrames s.link.missingFrames
  unfold State.lockedArrival
  dsimp only
  split
  · refine NodeFills.badPosition ?_ ?_ _
    · exact h.restarted state (by simp) _ s.link.missingFrames
    · exact state
  · split
    next first =>
      refine NodeFills.takeBoundary restarted ?_ ?_ f _ _ _
      · exact state
      · exact first
    next later =>
      obtain ⟨_, expected, _, timer, filling, lost, recording, complete⟩ := restarted.readyToFill_bad state
      refine nodeFills_takePosition ?_
      refine ⟨state, expected, Nat.zero_le _, timer, fun present => ?_, lost, recording, complete⟩
      have later : s.link.expected ≠ 0 := later
      simpa [later] using filling present

theorem NodeFills.arrival (f : Frame) (g : Bool) : NodeFills (s.arrival f g) := by
  have sampled : NodeFills (s.atArrival g) := by
    unfold NodeFills
    rw [(s.atArrival_out g).1, show (s.atArrival g).link = s.link by simp]
    exact h
  unfold State.arrival State.takeArrival
  split
  · exact sampled.seek f
  next lost =>
    obtain ⟨expected, badRun, timer, filling, lostZero, recording, complete⟩ := sampled
    refine NodeFills.seek ?_ f
    refine ⟨expected, fun locked => ?_, ?_, fun locked => ?_, fun zero => ?_, recording, complete⟩
    · cases locked
    · simpa [show s.link.state = .lost by simpa using lost] using timer
    · cases locked
    · have locked := (lostZero zero).1
      rw [lost] at locked
      cases locked
  next locked => exact sampled.lockedArrival locked f

end

/-- The power-on values of the link port: SEEKING, with no row. -/
theorem linkFills_reset : LinkFills Link.reset 0 := ⟨by decide, nofun, by decide, nofun, nofun, rfl, .inl rfl⟩

/-- Settles O59: a position fills its place; a loss, a relock and a boundary empty the block. -/
theorem stepKeepsBlockFilling : Obligations.StepKeepsBlockFilling := by
  intro s t fills steps
  refine blockFills_iff.2 (step_keeps (P := NodeFills) (fun c s t hs executes => ?_) (fun s q hs => hs)
    (blockFills_iff.1 fills) steps)
  apply exec_keeps executes hs
  case power => exact fun p => linkFills_reset
  case assert => exact linkFills_reset
  case release => exact fun p => hs
  case arrival => exact hs.arrival
  case gap => exact hs.gapExpiry
  case finishing =>
    unfold State.completeFinishing
    split
    · simpa [NodeFills, State.finishUncut, State.finishPass_out, State.formOutput] using hs
    · exact hs
  case override =>
    intro r
    refine State.liveList_keeps (P := NodeFills) ?_ hs
    split
    · exact hs
    · refine takeEntries_inv (P := NodeFills) (fun u e h => ?_) _ _ _ _ hs
      unfold overrideEntry
      split
      · exact h
      · dsimp only [Output.changeSilence]
        split <;> exact h
  case guardSet => exact fun r => State.liveList_keeps (P := NodeFills) (by simpa [NodeFills] using hs) hs
  case guardRelease => exact fun r => State.liveList_keeps (P := NodeFills) (by simpa [NodeFills] using hs) hs
  case statusRead =>
    intro r
    unfold State.statusRead
    split
    · exact hs
    · refine State.liveList_keeps (P := NodeFills) ?_ hs
      obtain ⟨expected, badRun, timer, filling, lost, recording, complete⟩ := hs
      dsimp only
      split
      · exact ⟨expected, badRun, timer, filling, lost, recording, complete⟩
      · exact ⟨expected, badRun, timer, filling, lost, recording, complete⟩
  case restart =>
    unfold State.restart
    split
    · exact hs
    · dsimp only
      split
      · obtain ⟨expected, badRun, timer, filling, lost, recording, complete⟩ := hs
        unfold NodeFills
        simp only [State.advanceMem_keeps, State.queueNotice_keeps, State.restartBlocks, State.floorToProgress_keeps,
          State.abandonPass_keeps, State.abandonPass_recording]
        exact ⟨expected, badRun, timer, filling, lost, recording, complete⟩
      · exact hs
  all_goals intros; simpa [NodeFills] using hs

end Sys2Proof.Safety
end

section
/-! PROOF. A step, the reset pin, the power-on values and the invariants at reset (R177 to R179, Table 43). -/

namespace Sys2Proof.Machine

open Sys2Proof.Safety

/-! ### A step and the reset pin -/

/-- Settles O1: the two cases of the queue of waiting commands. -/
theorem stepRunsTheFrontCommand : Obligations.StepRunsTheFrontCommand := by
  refine ⟨fun c rest s queue => ?front, fun s empty => ?idle⟩
  case front => rw [step, queue]
  case idle => rw [step, empty]

/-- Every command answers with a state. -/
theorem exec_next (c : Instr) (s : State) : ∃ t, exec c s = .next t := by
  cases c <;> exact ⟨_, rfl⟩

/-- A command leaves the queue of waiting commands. -/
theorem exec_pending {c : Instr} {s t : State} (executes : exec c s = .next t) : t.pending = s.pending := by
  apply exec_keeps (P := fun t => t.pending = s.pending) executes rfl
  case power => exact fun p => rfl
  case assert => rfl
  case release => exact fun p => rfl
  all_goals intros; simp [State.arrival]

/-- R178: a command other than a power-on and the release of the pin has its effect only with the pin released. -/
theorem exec_held {c : Instr} (s : State) (power : ∀ p q, c ≠ .powerOn p q) (release : ∀ p q, c ≠ .resetPinRelease p q) :
    ∃ u, exec c s = .next (if s.resetPin then s else u) := by
  cases c with
  | powerOn pos1 pos0 => exact absurd rfl (power _ _)
  | resetPinRelease pos1 pos0 => exact absurd rfl (release _ _)
  | _ => exact ⟨_, rfl⟩

/-- Settles O2: each command answers, and all but two are held by the reset pin. -/
theorem everyCommandAnswersAndTheResetPinHolds : Obligations.EveryCommandAnswersAndTheResetPinHolds :=
  ⟨fun c s => (exec_next c s).imp fun _ executes => ⟨executes, exec_pending executes⟩, fun c s asserted power release => by
    obtain ⟨u, executes⟩ := exec_held s power release
    rw [executes, if_pos asserted]⟩

/-! ### Power-on and the reset pin -/

/-- R179: the straps give the position. -/
theorem strapPosition_val (p1 p0 : Bool) : (strapPosition p1 p0).val = 2 * p1.toNat + p0.toNat := by
  cases p1 <;> cases p0 <;> rfl

/-- R125, log 6: what an unrefreshed DRAM still holds of the bytes the node had written, it held before. -/
theorem Memory.read_filter (keeps : Nat → Bool) (m : List Host.Cell) (a : Nat) :
    Memory.read (m.filter fun c => keeps c.1) a = if keeps a then Memory.read m a else none := by
  induction m with
  | nil => simp [Memory.read, Memory.unlisted]
  | cons c rest ih =>
    obtain ⟨b, v⟩ := c
    by_cases kept : keeps b
    · rw [List.filter_cons_of_pos (p := fun c : Host.Cell => keeps c.1) kept, Memory.read, ih, Memory.read]
      split
      next same => rw [same, if_pos kept]
      · rfl
    · rw [List.filter_cons_of_neg (p := fun c : Host.Cell => keeps c.1) kept, ih, Memory.read]
      by_cases same : a = b
      · rw [same, if_neg kept, if_neg kept]
      · rw [if_neg same]

theorem State.read_unrefreshed {s : State} {a : Nat} {v : Byte} (h : Memory.read s.unrefreshed a = some v) :
    Memory.read s.dram a = some v := by
  have filtered : Memory.read s.unrefreshed a = _ := Memory.read_filter (Config.dramKeeps s.powerCycle) s.dram a
  rw [h] at filtered
  split at filtered
  · exact filtered.symm
  · cases filtered

/-- Table 43: the values after power-on, whatever the queue, the pin, the position, the DRAM and the counts of power-ons and
passes. -/
theorem atPowerOn_reset (pending : List Instr) (pin : Bool) (p : Fin 4) (dram : List Host.Cell) (cycle serial : Nat) :
    AtPowerOn { State.reset with
      pending := pending, resetPin := pin, position := p, dram := dram, powerCycle := cycle, passSerial := serial } where
  link := ⟨rfl, rfl, rfl⟩
  captured := ⟨rfl, rfl, rfl⟩
  cells := ⟨rfl, rfl⟩
  linkCounters := ⟨rfl, rfl, rfl, rfl⟩
  records := ⟨rfl, rfl, rfl, rfl⟩
  notices := ⟨rfl, rfl⟩
  node := rfl
  banks := ⟨rfl, rfl⟩
  roles := ⟨rfl, rfl, rfl, rfl⟩
  pointer := ⟨rfl, rfl⟩
  channels := rfl
  lines := ⟨rfl, rfl⟩
  tap := ⟨rfl, rfl, rfl, rfl, rfl⟩
  accumulators := ⟨rfl, rfl⟩
  ramps := ⟨rfl, rfl, rfl, rfl, rfl⟩
  gens := rfl
  buffers := ⟨rfl, rfl, rfl, rfl⟩
  groups := rfl
  silence := ⟨rfl, rfl, rfl⟩
  saturation := rfl
  copy := rfl
  memory := ⟨rfl, rfl, rfl, rfl⟩
  memoryQueue := ⟨rfl, rfl, rfl, rfl⟩

/-- Settles O3: all three commands are written out by the fields of the state. -/
theorem powerOnAndResetSetEveryBlock : Obligations.PowerOnAndResetSetEveryBlock := by
  refine ⟨fun p1 p0 s => ?power, fun s released => ?assert, fun p1 p0 s asserted => ?release⟩
  case power =>
    exact ⟨_, rfl, atPowerOn_reset _ _ _ _ _ _, strapPosition_val p1 p0, rfl, rfl, fun _ _ => State.read_unrefreshed⟩
  case assert =>
    refine ⟨{ s.powerOnValues with resetPin := true }, by simp [exec, execResetPinAssert, released],
      atPowerOn_reset _ _ _ _ _ _, rfl, rfl, fun _ _ => State.read_unrefreshed⟩
  case release =>
    exact ⟨{ s with resetPin := false, position := strapPosition p1 p0 }, by simp [exec, execResetPinRelease, asserted], rfl,
      strapPosition_val p1 p0⟩

/-! ### The invariants at reset -/

/-- Settles O60: each invariant of the power-on values. -/
theorem invariantsHoldAtReset : Obligations.InvariantsHoldAtReset := by
  refine ⟨atPowerOn_reset _ _ _ _ _ _, rfl, queuesBounded_iff.2 (queuesBounded_of_reset rfl rfl), gensLegal_reset,
    groupsLegal_reset, mutedIsSilent_iff.2 silentFields_reset, slotsDistinct_iff.2 ⟨tableDistinct_reset, ?copy⟩,
    banksInRole_iff.2 inRole_reset, ⟨fun _ => rfl, fun _ => rfl⟩, timerFollowsState_iff.2 timerFollows_reset,
    blockFills_iff.2 linkFills_reset⟩
  case copy => exact distinctSlots_none.congr fun c hc => congrArg ChannelCopy.slot (List.getD_replicate _ hc)

end Sys2Proof.Machine
end

section
/-! PROOF. Refreshes, the sequences of the memory, and MEMORY-SETUP (R126 to R131, R136, R137). -/

namespace Sys2Proof.Machine

open Sys2Proof.Safety

/-! ### Refreshes -/

/-- R136: a running timer that runs out raises the count, or is held at eight. -/
theorem MemController.refreshDue_eq {m : MemController} {i : Interval} (running : m.timer = .running i) :
    m.refreshDue = if m.owed < 8 then { m with owed := m.owed + 1, timer := .running m.interval }
      else { m with timer := .expired } := by
  simp only [MemController.refreshDue, running]

/-- R136, R137: the end of a refresh takes one from the count, and a held expiry puts one back. -/
theorem MemController.refreshEnd_eq (m : MemController) : m.refreshEnd = { m with
    owed := if m.timer = .expired then m.owed - 1 + 1 else m.owed - 1
    timer := if m.timer = .expired then .running m.interval else m.timer
    settingRefreshes := m.settingRefreshes - 1, bankTable := allClosed, service := .none, periods := 0 } := by
  unfold MemController.refreshEnd
  cases timer : m.timer <;> simp

/-- R134: how the controller goes on in a state that ends with its going on. -/
theorem goesOn_of_advanceMem {u t : State} {m : MemController} (ends : t = u.advanceMem) (mem : u.mem = m) : GoesOn m t := by
  rw [ends, ← mem]
  exact u.advanceMem_goesOn

/-- R136, R137: what goes on after a change of the controller alone, with the count and the timer that it has then. -/
theorem State.withMem_goesOn (s : State) (m : MemController) :
    GoesOn m (s.withMem m).advanceMem ∧ (s.withMem m).advanceMem.mem.owed = m.owed ∧
    (s.withMem m).advanceMem.mem.timer = m.timer ∧
    (s.withMem m).advanceMem = { s with mem := (s.withMem m).advanceMem.mem } := by
  obtain ⟨_, owed, timer, _⟩ := m.advance_keeps (s.withMem m).passCount
  exact ⟨(s.withMem m).advanceMem_goesOn, owed, timer, rfl⟩

/-- Settles O26: the two events change the controller by their equations, and the controller goes on. -/
theorem refreshDebtRisesAndIsPaid : Obligations.RefreshDebtRisesAndIsPaid := by
  refine ⟨fun s i released running => ?due, fun s stopped => ?notDue, fun s released serving => ?end_,
    fun s idle => ?notServing⟩
  case due =>
    have executes : exec .refreshDue s = .next (s.withMem s.mem.refreshDue).advanceMem := by
      refine (State.running_of_released released _).trans ?_
      simp only [State.refreshExpiry, running]
    obtain ⟨goesOn, owed, timer, rest⟩ := s.withMem_goesOn s.mem.refreshDue
    refine ⟨_, executes, ?_⟩
    generalize (s.withMem s.mem.refreshDue).advanceMem = t at goesOn owed timer rest
    rw [owed, timer]
    rw [MemController.refreshDue_eq running] at goesOn ⊢
    by_cases below : s.mem.owed < 8
    · rw [if_pos below] at goesOn ⊢
      exact ⟨fun _ => ⟨rfl, rfl⟩, fun full => absurd below (Nat.not_lt.2 full), goesOn, rest⟩
    · rw [if_neg below] at goesOn ⊢
      exact ⟨fun less => absurd less below, fun _ => ⟨rfl, rfl⟩, goesOn, rest⟩
  case notDue =>
    refine State.running_of_unchanged ?_
    unfold State.refreshExpiry
    split
    next i running => exact absurd running (stopped i)
    · rfl
    · rfl
  case end_ =>
    have executes : exec .refreshEnd s = .next (s.withMem s.mem.refreshEnd).advanceMem := by
      refine (State.running_of_released released _).trans ?_
      rw [State.endRefresh, if_pos serving]
    obtain ⟨goesOn, owed, timer, rest⟩ := s.withMem_goesOn s.mem.refreshEnd
    refine ⟨_, executes, ?_⟩
    generalize (s.withMem s.mem.refreshEnd).advanceMem = t at goesOn owed timer rest
    rw [owed, timer]
    rw [MemController.refreshEnd_eq] at goesOn ⊢
    exact ⟨fun held => ⟨if_pos held, if_pos held⟩, fun free => ⟨if_neg free, if_neg free⟩, goesOn, rest⟩
  case notServing =>
    exact State.running_of_unchanged (if_neg idle)

/-! ### The sequences of the memory -/

/-- R127, R128: the MEMORY-SETUP that began a sequence completes, in the words of Safety. -/
theorem State.completeSetup_eq (s : State) : s.completeSetup = { s with records := setupCompleted s } := by
  unfold State.completeSetup setupCompleted
  cases setup : s.records.setup with
  | none => rfl
  | some clamped =>
    cases table : s.records.table with
    | nil => rfl
    | cons r rest =>
      simp only [State.completeTable_eq, tableDone, State.withRecords_records, table]
      rfl

/-- R12: the floor set to the block in progress, if there is one. -/
theorem State.floorToProgress_eq (s : State) : s.floorToProgress = { s with lines := { s.lines with
    floor := if s.link.state = .locked then s.link.block else s.lines.floor } } := by
  unfold State.floorToProgress State.blockInProgress
  split <;> rfl

/-- Settles O27: each sequence's end is its change of the controller, the completion of its record and, for the
initialization, the floor. -/
theorem memorySequencesComplete : Obligations.MemorySequencesComplete := by
  refine ⟨⟨fun s released state => ?initialized, fun s released state serving => ?modeSet,
      fun s released state => ?left⟩, fun s released state serving => ?entered, fun s => ⟨fun other => ?_, fun other => ?_,
      fun other => ?_, fun other => ?_⟩⟩
  case initialized =>
    have executes : exec .memoryInitComplete s =
        .next (((s.withMem { s.mem.arriveReady with owed := 0 }).completeSetup).floorToProgress).advanceMem := by
      refine (State.running_of_released released _).trans ?_
      rw [State.endInitialization, if_pos state]
    rw [State.completeSetup_eq, State.floorToProgress_eq] at executes
    exact ⟨_, executes, goesOn_of_advanceMem rfl rfl, rfl, rfl, rfl⟩
  case modeSet =>
    have executes : exec .modeSetComplete s = .next ((s.withMem s.mem.arriveReady).completeSetup).advanceMem := by
      refine (State.running_of_released released _).trans ?_
      rw [State.endModeSet, if_pos ⟨state, serving⟩]
    rw [State.completeSetup_eq] at executes
    exact ⟨_, executes, goesOn_of_advanceMem rfl rfl, rfl, rfl⟩
  case left =>
    have executes : exec .selfRefreshExit s = .next (s.withMem { s.mem.arriveReady with owed := 0 }).advanceMem := by
      refine (State.running_of_released released _).trans ?_
      rw [State.endLeaving, if_pos state]
    exact ⟨_, executes, goesOn_of_advanceMem rfl rfl, rfl⟩
  case entered =>
    refine (State.running_of_released released _).trans ?_
    rw [State.endEntering, if_pos ⟨state, serving⟩]
    rfl
  · exact State.running_of_unchanged (if_neg other)
  · exact State.running_of_unchanged (if_neg (by tauto))
  · exact State.running_of_unchanged (if_neg (by tauto))
  · exact State.running_of_unchanged (if_neg other)

/-! ### MEMORY-SETUP -/

theorem intervalOf_of_le {n : Nat} (h : n ≤ 1) : intervalOf n = some (if n = 0 then .us78 else .us39) := by
  have range : n = 0 ∨ n = 1 := by omega
  rcases range with rfl | rfl <;> rfl

theorem intervalOf_of_lt : ∀ {n : Nat}, 1 < n → intervalOf n = none
  | _ + 2, _ => rfl

/-- R126: a refresh count out of 2..15 counts as clamped. -/
theorem setupClamps_eq (r : Record) : (clampRefreshCount (byteAt r.body 0) != byteAt r.body 0) = setupClamps r := by
  rw [Bool.eq_iff_iff]
  simp only [clampRefreshCount, setupClamps, bne_iff_ne, decide_eq_true_eq]
  omega

section
variable {s : State} {r : Record} (length : r.body.length = 3) (held : s.mem.state.holdsSetup = false)
include length held

/-- R126: parameters that are known are checked and stored. -/
theorem State.memorySetup_of_valid {i : Interval} (interval : intervalOf (byteAt r.body 1) = some i)
    (latency : byteAt r.body 2 = 2 ∨ byteAt r.body 2 = 3) :
    s.memorySetup r = s.applySetup r (byteAt r.body 0) i (byteAt r.body 2) := by
  rcases latency with l | l <;> simp [State.memorySetup, held, length, interval, l]

/-- R126: an unknown interval or latency is refused. -/
theorem State.memorySetup_of_invalid (unknown : intervalOf (byteAt r.body 1) = none ∨
    (byteAt r.body 2 ≠ 2 ∧ byteAt r.body 2 ≠ 3)) : s.memorySetup r = s.completeTable r .malformed {} := by
  unfold State.memorySetup
  rw [if_neg (by simp [held]), length, beq_self_eq_true, State.tableList_true]
  split
  next interval two => simp [interval, two] at unknown
  next interval three => simp [interval, three] at unknown
  · rfl

end

section
variable {s : State} {r : Record} {i : Interval} {latency : Nat}

/-- R126, R127: from UNINIT the initialization begins. -/
theorem State.applySetup_uninit (state : s.mem.state = .uninit) : s.applySetup r (byteAt r.body 0) i latency = { s with
    mem := { s.mem with
      refreshCount := max 2 (min 15 (byteAt r.body 0)), interval := i, latency := latency
      state := .initializing, service := .initialization
      periods := 3 + 10 * max 2 (min 15 (byteAt r.body 0)) + (2 + 4) }
    records := { s.records with setup := some (setupClamps r) } } := by
  rw [← setupClamps_eq]
  simp only [State.applySetup, state]
  rfl

/-- R126, R128: from READY the drain begins. -/
theorem State.applySetup_ready (state : s.mem.state = .ready) : s.applySetup r (byteAt r.body 0) i latency =
    ({ s with
      mem := { s.mem with
        refreshCount := max 2 (min 15 (byteAt r.body 0)), interval := i, latency := latency, state := .draining }
      records := { s.records with setup := some (setupClamps r) } } : State).advanceMem := by
  rw [← setupClamps_eq]
  simp only [State.applySetup, state]
  rfl

/-- R126, R130: in SELF-REFRESH the parameters are stored and the record completes. -/
theorem State.applySetup_asleep (state : s.mem.state = .entering ∨ s.mem.state = .held ∨ s.mem.state = .leaving) :
    s.applySetup r (byteAt r.body 0) i latency = { s with
      mem := { s.mem with refreshCount := max 2 (min 15 (byteAt r.body 0)), interval := i, latency := latency }
      records := tableDone s r (if setupClamps r then .doneWithClamps else .done)
        { written := 1, clamped := bit (setupClamps r) 1 } } := by
  rw [← setupClamps_eq]
  rcases state with state | state | state <;> simp only [State.applySetup, state] <;> rfl

end

/-- Settles O28: the record at the head is held, refused or applied, by the memory state. -/
theorem memorySetupActsByTheMemoryState : Obligations.MemorySetupActsByTheMemoryState := by
  refine ⟨fun s state r atHead => ?held, fun s r atHead length state => ⟨fun unknown => ?unknown, fun interval latency => ?known⟩⟩
  case held =>
    have executes : exec .memorySetup s = .next (s.memorySetup r) := running_atTableHead State.memorySetup atHead
    rw [executes, State.memorySetup, if_pos]
    rcases state with state | state | state <;> rw [state] <;> rfl
  case unknown =>
    have executes : exec .memorySetup s = .next (s.memorySetup r) := running_atTableHead State.memorySetup atHead
    have held : s.mem.state.holdsSetup = false := by
      rcases state with state | state | state | state | state <;> rw [state] <;> rfl
    rw [executes, State.memorySetup_of_invalid length held (unknown.imp_left intervalOf_of_lt), State.completeTable_eq]
  case known =>
    have executes : exec .memorySetup s = .next (s.memorySetup r) := running_atTableHead State.memorySetup atHead
    have held : s.mem.state.holdsSetup = false := by
      rcases state with state | state | state | state | state <;> rw [state] <;> rfl
    rw [executes, State.memorySetup_of_valid length held (intervalOf_of_le interval) latency]
    rcases state with uninit | ready | asleep
    · rw [State.applySetup_uninit uninit]
      exact ⟨_, rfl, rfl, fun _ => ⟨rfl, rfl⟩, fun ready => by simp [uninit] at ready, fun asleep => by simp [uninit] at asleep⟩
    · rw [State.applySetup_ready ready]
      exact ⟨_, rfl, rfl, fun uninit => by simp [ready] at uninit, fun _ => ⟨goesOn_of_advanceMem rfl rfl, rfl⟩,
        fun asleep => by simp [ready] at asleep⟩
    · rw [State.applySetup_asleep asleep]
      refine ⟨_, rfl, rfl, fun uninit => ?_, fun ready => ?_, fun _ => ⟨rfl, rfl⟩⟩
      · simp [uninit] at asleep
      · simp [ready] at asleep

end Sys2Proof.Machine
end

section
/-! PROOF. How the entries of a record are counted (R169). -/

namespace Sys2Proof.Machine

open Sys2Proof.Safety

/-! ### Marks and their tally -/

/-- The counts of the marks of entries `i`, `i + 1` and so on, added to those of the entries before. -/
def Tally.addAll (t : Tally) : Nat → List Mark → Tally
  | _, [] => t
  | i, m :: ms => (t.add i m).addAll (i + 1) ms

/-- What the entries of a record count is the tally of their marks. -/
theorem takeEntries_snd {σ : Type} (f : σ → List Byte → σ × Mark) (es : List (List Byte)) (i : Nat) (x : σ) (t : Tally) :
    (takeEntries f es i x t).2 = t.addAll i (marksOf f es x) := by
  induction es generalizing i x t with
  | nil => rfl
  | cons e es ih => exact ih _ _ _

@[simp] theorem marksOf_length {σ : Type} (f : σ → List Byte → σ × Mark) (es : List (List Byte)) (x : σ) :
    (marksOf f es x).length = es.length := by
  induction es generalizing x with
  | nil => rfl
  | cons e es ih => simp [marksOf, ih]

theorem bit_add_countP (p : Mark → Bool) (m : Mark) (ms : List Mark) (n : Nat) :
    n + bit (p m) 1 + ms.countP p = n + (m :: ms).countP p := by
  rw [List.countP_cons, bit]
  omega

/-- R169: each count of a tally is the number of marks counted so. -/
theorem Tally.addAll_counts (ms : List Mark) (t : Tally) (i : Nat) :
    (t.addAll i ms).written = t.written + ms.countP (·.written) ∧
    (t.addAll i ms).clamped = t.clamped + ms.countP (·.clamped) ∧
    (t.addAll i ms).rejected = t.rejected + ms.countP (fun m => m.rejected || m.discarded) ∧
    (t.addAll i ms).foreign = t.foreign + ms.countP (·.foreign) ∧
    (t.addAll i ms).discarded = t.discarded + ms.countP (·.discarded) := by
  induction ms generalizing t i with
  | nil => exact ⟨rfl, rfl, rfl, rfl, rfl⟩
  | cons m ms ih =>
    obtain ⟨written, clamped, rejected, foreign, discarded⟩ := ih (t.add i m) (i + 1)
    exact ⟨written.trans (bit_add_countP _ m ms _), clamped.trans (bit_add_countP _ m ms _),
      rejected.trans (bit_add_countP (fun m => m.rejected || m.discarded) m ms _), foreign.trans (bit_add_countP _ m ms _),
      discarded.trans (bit_add_countP _ m ms _)⟩

/-- R169: the first index of a tally is that of the first flagged mark. -/
theorem Tally.addAll_first (ms : List Mark) (t : Tally) (i : Nat) :
    (t.addAll i ms).first = if t.first.isSome then t.first else (ms.findIdx? Mark.flagged).map (i + ·) := by
  induction ms generalizing t i with
  | nil => cases first : t.first <;> simp [Tally.addAll, first]
  | cons m ms ih =>
    rw [Tally.addAll, ih, List.findIdx?_cons]
    cases first : t.first with
    | some k => simp [Tally.add, first]
    | none =>
      cases flagged : m.flagged with
      | true => simp [Tally.add, first, flagged]
      | false =>
        simp only [Tally.add, first, flagged]
        simp [Function.comp_def, Nat.add_assoc, Nat.add_comm 1]

/-- R169: the counts of a record are those of its marks. -/
theorem takeEntries_counts {σ : Type} (f : σ → List Byte → σ × Mark) (es : List (List Byte)) (x : σ) :
    (takeEntries f es 0 x {}).2.counts =
      ⟨(marksOf f es x).countP (·.written), (marksOf f es x).countP (·.clamped),
        (marksOf f es x).countP (fun m => m.rejected || m.discarded), (marksOf f es x).countP (·.foreign),
        ((marksOf f es x).findIdx? Mark.flagged).getD 0⟩ := by
  obtain ⟨written, clamped, rejected, foreign, _⟩ := Tally.addAll_counts (marksOf f es x) {} 0
  have first := Tally.addAll_first (marksOf f es x) {} 0
  rw [takeEntries_snd]
  simp only [Tally.counts, written, clamped, rejected, foreign, first]
  simp

/-- R169: the outcome of a record goes by its discarded and its flagged marks. -/
theorem takeEntries_outcome {σ : Type} (f : σ → List Byte → σ × Mark) (es : List (List Byte)) (x : σ) :
    (takeEntries f es 0 x {}).2.outcome =
      if ∃ m ∈ marksOf f es x, m.discarded = true then .clipped
      else if ∃ m ∈ marksOf f es x, m.flagged = true then .doneWithClamps else .done := by
  obtain ⟨_, _, _, _, discarded⟩ := Tally.addAll_counts (marksOf f es x) {} 0
  have first := Tally.addAll_first (marksOf f es x) {} 0
  have anyDiscarded : 0 < (Tally.addAll {} 0 (marksOf f es x)).discarded ↔ ∃ m ∈ marksOf f es x, m.discarded = true := by
    simp [discarded, List.countP_pos_iff]
  have anyFlagged : (Tally.addAll {} 0 (marksOf f es x)).first.isSome = true ↔
      ∃ m ∈ marksOf f es x, m.flagged = true := by
    simp [first, List.findIdx?_isSome]
  rw [takeEntries_snd]
  simp only [Tally.outcome, anyDiscarded, anyFlagged]

/-- Settles O37: the entries taken in turn are a fold, and their tally is that of their marks. -/
theorem entriesAreCounted : Obligations.EntriesAreCounted :=
  fun _ f es x => ⟨takeEntries_fst f es 0 x {}, marksOf_length f es x, takeEntries_counts f es x, takeEntries_outcome f es x⟩

end Sys2Proof.Machine
end

section
/-! PROOF. The records that change the scene tables: TAP-WRITE, TAP-CLEAR and COPY-ACTIVE (R18 to R23, R30). -/

namespace Sys2Proof.Machine

open Sys2Proof.Safety

/-! ### The check of a fade -/

/-- R30: a record that waits for a fade, with none in flight, has its effect. -/
theorem State.unlessFading_of_still {s : State} (still : s.store.fade = false) (u : State) : s.unlessFading u = u := by
  simp [State.unlessFading, still]

theorem State.unlessFading_of_fading {s : State} (fading : s.store.fade = true) (u : State) : s.unlessFading u = s := by
  simp [State.unlessFading, fading]

/-! ### The entries of a TAP-WRITE one after another -/

/-- R18, R20: the bank after the entries were stored from index `a` on; an index past the last stores nothing. -/
def storeEntries (p : Fin 4) : Bank → Nat → List (List Byte) → Bank
  | b, _, [] => b
  | b, a, e :: es => storeEntries p (b.set a (checkTapEntry p e).1) (a + 1) es

@[simp] theorem storeEntries_length (p : Fin 4) (es : List (List Byte)) (b : Bank) (a : Nat) :
    (storeEntries p b a es).length = b.length := by
  induction es generalizing b a with
  | nil => rfl
  | cons e es ih => rw [storeEntries, ih, List.length_set]

/-- R18, R20: each entry of the bank after the entries were stored. -/
theorem storeEntries_getD (p : Fin 4) (es : List (List Byte)) (b : Bank) (a i : Nat) :
    (storeEntries p b a es).getD i none =
      if a ≤ i ∧ i < a + es.length ∧ i < b.length then (checkTapEntry p (es.getD (i - a) [])).1 else b.getD i none := by
  induction es generalizing b a with
  | nil =>
    rw [storeEntries, if_neg]
    simp only [List.length_nil]
    omega
  | cons e es ih =>
    rw [storeEntries, ih, List.length_set, List.length_cons]
    by_cases here : i = a
    · subst here
      rw [if_neg (by omega)]
      by_cases inside : i < b.length
      · rw [getD_set_of_lt inside, if_pos rfl, if_pos (by omega), Nat.sub_self]
        rfl
      · rw [if_neg (by omega), List.getD_eq_default _ _ (by simpa using inside),
          List.getD_eq_default _ _ (Nat.le_of_not_lt inside)]
    · have other : (b.set a (checkTapEntry p e).1).getD i none = b.getD i none := by
        rw [List.getD_eq_getElem?_getD, List.getElem?_set_ne (Ne.symm here), ← List.getD_eq_getElem?_getD]
      rw [other]
      by_cases stored : a + 1 ≤ i ∧ i < a + 1 + es.length ∧ i < b.length
      · rw [if_pos stored, if_pos (by omega), show i - a = i - (a + 1) + 1 by omega, List.getD_cons_succ]
      · rw [if_neg stored, if_neg (by omega)]

/-- R20: the table store with the bank `b` in its SHADOW place and the pointer moved to `a`; past 1,023 it is locked. -/
def Store.pointed (t : Store) (a : Nat) (b : Bank) : Store :=
  { t.withBank t.idleBank b with pointer := min 1023 a, pointerLocked := decide (1024 ≤ a) }

theorem Store.withBank_self (t : Store) (k : BankNo) : t.withBank k (t.bank k) = t := by
  by_cases first : k = 0 <;> simp [Store.withBank, Store.bank, first]

theorem Store.loadPointer_eq (t : Store) (start : Nat) : t.loadPointer start = t.pointed start (t.bank t.idleBank) := by
  rw [Store.pointed, Store.withBank_self]
  rfl

@[simp] theorem Store.pointed_bank (t : Store) (a : Nat) (b : Bank) : (t.pointed a b).bank t.idleBank = b := by
  have bank := t.withBank_bank t.idleBank b t.idleBank
  rw [if_pos rfl] at bank
  exact bank

@[simp] theorem Store.pointed_idleBank (t : Store) (a : Nat) (b : Bank) : (t.pointed a b).idleBank = t.idleBank := by
  simp [Store.idleBank, Store.pointed]

theorem Store.pointed_withBank (t : Store) (a : Nat) (b c : Bank) :
    (t.pointed a b).withBank t.idleBank c = t.pointed a c := by
  by_cases first : t.idleBank = 0 <;> simp [Store.pointed, Store.withBank, first]

/-- R18, R20: one entry is stored at the pointer, which moves on; past the last index the entry is discarded. -/
theorem tapWriteEntry_pointed (p : Fin 4) (t : Store) {b : Bank} (full : b.length = 1024) (a : Nat) (e : List Byte) :
    tapWriteEntry p (t.pointed a b) e = (t.pointed (a + 1) (b.set a (checkTapEntry p e).1),
      if a < 1024 then (checkTapEntry p e).2 else { discarded := true }) := by
  unfold tapWriteEntry
  by_cases inside : a < 1024
  · have locked : (t.pointed a b).pointerLocked = false := by simpa [Store.pointed] using inside
    have pointer : (t.pointed a b).pointer = a := by simp [Store.pointed]; omega
    rw [if_neg (by simp [locked]), if_pos inside]
    dsimp only
    rw [Store.pointed_idleBank, Store.pointed_bank, pointer, Store.pointed_withBank]
    congr 1
    unfold Store.advancePointer
    have moved : (t.pointed a (b.set a (checkTapEntry p e).1)).pointer = a := by simp [Store.pointed]; omega
    rw [moved]
    by_cases last : a < 1023
    · rw [if_pos last]
      simp [Store.pointed]
      omega
    · rw [if_neg last]
      simp [Store.pointed]
      omega
  · have locked : (t.pointed a b).pointerLocked = true := by simpa [Store.pointed] using inside
    rw [if_pos locked, if_neg inside, List.set_eq_of_length_le (by omega)]
    simp [Store.pointed]
    omega

/-- R18, R20: the table store after all entries. -/
theorem tapWriteEntry_foldl (p : Fin 4) (t : Store) (es : List (List Byte)) {b : Bank} (full : b.length = 1024) (a : Nat) :
    es.foldl (fun y e => (tapWriteEntry p y e).1) (t.pointed a b) = t.pointed (a + es.length) (storeEntries p b a es) := by
  induction es generalizing a b with
  | nil => rfl
  | cons e es ih =>
    rw [List.foldl_cons, tapWriteEntry_pointed p t full, ih (by rw [List.length_set, full]), storeEntries, List.length_cons,
      Nat.add_right_comm, Nat.add_assoc]

/-- R20, R21: the marks of the entries: those stored count by their check, the others are discarded. -/
theorem tapWriteEntry_marks (p : Fin 4) (t : Store) (es : List (List Byte)) {b : Bank} (full : b.length = 1024) (a : Nat) :
    marksOf (tapWriteEntry p) es (t.pointed a b) = (es.take (1024 - a)).map (fun e => (checkTapEntry p e).2) ++
      List.replicate (es.length - (1024 - a)) { discarded := true } := by
  induction es generalizing a b with
  | nil => simp [marksOf]
  | cons e es ih =>
    rw [marksOf, tapWriteEntry_pointed p t full, ih (by rw [List.length_set, full])]
    by_cases inside : a < 1024
    · rw [if_pos inside, show 1024 - a = 1024 - (a + 1) + 1 by omega, List.take_succ_cons, List.map_cons, List.cons_append,
        List.length_cons, Nat.add_sub_add_right]
    · rw [if_neg inside, show 1024 - (a + 1) = 0 by omega, show 1024 - a = 0 by omega, List.take_zero, List.take_zero]
      rfl

/-! ### The counts of a TAP-WRITE -/

section
variable {marks : List Mark} (all : ∀ m ∈ marks, m.written = true ∧ m.discarded = false) (lost : Nat)
include all

/-- R20, R21: the outcome of stored entries with `lost` discarded ones after them. -/
theorem exists_discarded_append : (∃ m ∈ marks ++ List.replicate lost ({ discarded := true } : Mark), m.discarded = true) ↔
    0 < lost := by
  constructor
  · rintro ⟨m, mem, discarded⟩
    rcases List.mem_append.1 mem with stored | beyond
    · simp [(all m stored).2] at discarded
    · exact Nat.pos_of_ne_zero (List.mem_replicate.1 beyond).1
  · intro some
    exact ⟨_, List.mem_append_right _ (List.mem_replicate.2 ⟨some.ne', rfl⟩), rfl⟩

/-- R21, R169: the counts of stored entries with `lost` discarded ones after them. -/
theorem counts_append :
    (marks ++ List.replicate lost ({ discarded := true } : Mark)).countP (·.written) = marks.length ∧
    (marks ++ List.replicate lost ({ discarded := true } : Mark)).countP (·.clamped) = marks.countP (·.clamped) ∧
    (marks ++ List.replicate lost ({ discarded := true } : Mark)).countP (fun m => m.rejected || m.discarded) =
      marks.countP (·.rejected) + lost ∧
    (marks ++ List.replicate lost ({ discarded := true } : Mark)).countP (·.foreign) = marks.countP (·.foreign) := by
  have written : marks.countP (·.written) = marks.length := List.countP_eq_length.2 fun m mem => (all m mem).1
  have rejected : marks.countP (fun m => m.rejected || m.discarded) = marks.countP (·.rejected) :=
    List.countP_congr fun m mem => by simp [(all m mem).2]
  simp [List.countP_append, List.countP_replicate, written, rejected]

end

/-- R169: the first flagged of the marks with `lost` discarded ones after them. -/
theorem findIdx_append (marks : List Mark) (lost : Nat) :
    ((marks ++ List.replicate lost ({ discarded := true } : Mark)).findIdx? Mark.flagged).getD 0 =
      (marks.findIdx? Mark.flagged).getD (if 0 < lost then marks.length else 0) := by
  rw [List.findIdx?_append]
  cases marks.findIdx? Mark.flagged with
  | some k => rfl
  | none =>
    cases lost with
    | zero => rfl
    | succ lost => simp [List.replicate_succ, List.findIdx?_cons, Mark.flagged]

/-! ### TAP-WRITE, TAP-CLEAR and COPY-ACTIVE -/

/-- R21: the entries of a TAP-WRITE body. -/
theorem entriesOf_tapWrite {r : Record} (length : r.body.length = 4 + 16 * field2 r.body 2) :
    entriesOf 16 (r.body.drop 4) = tab (field2 r.body 2) (wireEntry r.body) := by
  have count : (r.body.length - 4) / 16 = field2 r.body 2 := by omega
  rw [entriesOf, List.length_drop, count]
  simp only [tab, List.drop_drop]
  rfl

/-- R20, R21: a TAP-WRITE of a right length takes its entries from the start index on. -/
theorem State.tapWrite_of_list {s : State} {r : Record} (long : 4 ≤ r.body.length)
    (length : r.body.length = 4 + 16 * field2 r.body 2) : s.tapWrite r =
      let x := takeEntries (tapWriteEntry s.position) (tab (field2 r.body 2) (wireEntry r.body)) 0
        (s.store.pointed (field2 r.body 0) (s.store.bank s.store.idleBank)) {}
      { s with store := x.1, records := tableDone s r x.2.outcome x.2.counts } := by
  have right : tapWriteLength r.body = true := by simp [tapWriteLength, long, ← length]
  rw [State.tapWrite, right, State.tableList_true, entriesOf_tapWrite length, Store.loadPointer_eq]
  rfl

/-- R20, R21: the marks of a TAP-WRITE: those of its stored entries, and a discarded one for each of the rest. -/
theorem tapWrite_marks (p : Fin 4) (t : Store) {b : Bank} (full : b.length = 1024) (body : List Byte) (start count : Nat) :
    marksOf (tapWriteEntry p) (tab count (wireEntry body)) (t.pointed start b) =
      ((List.range (storedCount start count)).map fun k => (checkTapEntry p (wireEntry body k)).2) ++
        List.replicate (count - storedCount start count) { discarded := true } := by
  have lost : count - (1024 - start) = count - storedCount start count := by
    unfold storedCount
    omega
  have entries : (tab count (wireEntry body)).take (1024 - start) = tab (storedCount start count) (wireEntry body) := by
    rw [tab, ← List.map_take, List.take_range, Nat.min_comm]
    rfl
  rw [tapWriteEntry_marks p t _ full, entries]
  simp only [tab, List.map_map, List.length_map, List.length_range, lost]
  rfl

/-- R20: the pointer after a TAP-WRITE stands behind the last stored entry, as behind the last entry. -/
theorem Store.pointed_stored (t : Store) (start count : Nat) (b : Bank) : t.pointed (start + count) b =
    { t.withBank t.idleBank b with
      pointer := min 1023 (start + storedCount start count)
      pointerLocked := decide (1024 ≤ start + storedCount start count) } := by
  have pointer : min 1023 (start + count) = min 1023 (start + storedCount start count) := by
    unfold storedCount
    omega
  have locked : 1024 ≤ start + count ↔ 1024 ≤ start + storedCount start count := by
    unfold storedCount
    omega
  simp only [Store.pointed, pointer, locked]

/-- R18: the marks of the stored entries of a TAP-WRITE. -/
def storedMarks (p : Fin 4) (body : List Byte) (n : Nat) : List Mark :=
  (List.range n).map fun k => (checkTapEntry p (wireEntry body k)).2

theorem storedMarks_all (p : Fin 4) (body : List Byte) (n : Nat) :
    ∀ m ∈ storedMarks p body n, m.written = true ∧ m.discarded = false := by
  intro m mem
  obtain ⟨k, _, rfl⟩ := List.mem_map.1 mem
  exact checkTapEntry_mark p _

section
variable (p : Fin 4) (t : Store) {b : Bank} (full : b.length = 1024) (body : List Byte) (start count : Nat)
include full

/-- R20, R21: the outcome of a TAP-WRITE, by its entries that were not stored and the marks of the others. -/
theorem tapWrite_outcome :
    (takeEntries (tapWriteEntry p) (tab count (wireEntry body)) 0 (t.pointed start b) {}).2.outcome =
      if storedCount start count < count then .clipped
      else if ∃ m ∈ storedMarks p body (storedCount start count), m.flagged = true then .doneWithClamps else .done := by
  have discarded := exists_discarded_append (storedMarks_all p body (storedCount start count))
    (count - storedCount start count)
  have marks : marksOf (tapWriteEntry p) (tab count (wireEntry body)) (t.pointed start b) =
    storedMarks p body (storedCount start count) ++ _ := tapWrite_marks p t full body start count
  rw [takeEntries_outcome, marks]
  simp only [discarded, Nat.sub_pos_iff_lt]
  by_cases clipped : storedCount start count < count
  · rw [if_pos clipped, if_pos clipped]
  · rw [if_neg clipped, if_neg clipped, Nat.sub_eq_zero_of_le (Nat.le_of_not_lt clipped), List.replicate_zero,
      List.append_nil]

/-- R21, R169: the counts of a TAP-WRITE. -/
theorem tapWrite_counts :
    (takeEntries (tapWriteEntry p) (tab count (wireEntry body)) 0 (t.pointed start b) {}).2.counts =
      { written := storedCount start count
        clamped := (storedMarks p body (storedCount start count)).countP (·.clamped)
        rejected := (storedMarks p body (storedCount start count)).countP (·.rejected) + (count - storedCount start count)
        foreign := (storedMarks p body (storedCount start count)).countP (·.foreign)
        first := ((storedMarks p body (storedCount start count)).findIdx? Mark.flagged).getD
          (if storedCount start count < count then storedCount start count else 0) } := by
  obtain ⟨written, clamped, rejected, foreign⟩ := counts_append (storedMarks_all p body (storedCount start count))
    (count - storedCount start count)
  have first := findIdx_append (storedMarks p body (storedCount start count)) (count - storedCount start count)
  have length : (storedMarks p body (storedCount start count)).length = storedCount start count := by simp [storedMarks]
  have marks : marksOf (tapWriteEntry p) (tab count (wireEntry body)) (t.pointed start b) =
    storedMarks p body (storedCount start count) ++ _ := tapWrite_marks p t full body start count
  rw [takeEntries_counts, marks, written, clamped, rejected, foreign, first, length]
  simp only [Nat.sub_pos_iff_lt]

/-- R18, R20: the table store after a TAP-WRITE. -/
theorem tapWrite_store :
    (takeEntries (tapWriteEntry p) (tab count (wireEntry body)) 0 (t.pointed start b) {}).1 =
      t.pointed (start + count) (storeEntries p b start (tab count (wireEntry body))) := by
  rw [takeEntries_fst, tapWriteEntry_foldl p t _ full]
  simp [tab]

end

/-- Settles O30: the entries up to the lock of the pointer are stored as they are checked; the rest are discarded. -/
theorem tapWriteStoresItsEntries : Obligations.TapWriteStoresItsEntries := by
  intro s r atHead still long length full
  have executes : exec .tapWrite s = .next (s.tapWrite r) :=
    (running_atTableHead (fun s r => s.unlessFading (s.tapWrite r)) atHead).trans
      (by rw [State.unlessFading_of_still still])
  have full : (s.store.bank s.store.idleBank).length = 1024 := full
  have stored : ∀ i, ((s.store.pointed (field2 r.body 0 + field2 r.body 2)
      (storeEntries s.position (s.store.bank s.store.idleBank) (field2 r.body 0)
        (tab (field2 r.body 2) (wireEntry r.body)))).bank s.store.idleBank).getD i none =
      if field2 r.body 0 ≤ i ∧ i < field2 r.body 0 + field2 r.body 2 ∧ i < 1024 then
        (checkTapEntry s.position (wireEntry r.body (i - field2 r.body 0))).1
      else (s.store.bank s.store.idleBank).getD i none := by
    intro i
    have entries : (tab (field2 r.body 2) (wireEntry r.body)).length = field2 r.body 2 := by simp [tab]
    rw [Store.pointed_bank, storeEntries_getD, full, entries]
    split
    next within => rw [getD_tab _ _ _ _ (show i - field2 r.body 0 < field2 r.body 2 by omega)]
    · rfl
  rw [executes, State.tapWrite_of_list long length]
  refine ⟨_, rfl, fun k below => ?entry, fun i outside => ?other, ?store, ?records, rfl⟩
  all_goals dsimp only
  case entry =>
    have below : k < min (field2 r.body 2) (1024 - field2 r.body 0) := below
    rw [tapWrite_store s.position s.store full]
    refine (stored _).trans ?_
    rw [if_pos (by omega), Nat.add_sub_cancel_left]
  case other =>
    have outside : i < field2 r.body 0 ∨ field2 r.body 0 + min (field2 r.body 2) (1024 - field2 r.body 0) ≤ i := outside
    rw [tapWrite_store s.position s.store full]
    exact (stored i).trans (if_neg (by omega))
  case store =>
    rw [tapWrite_store s.position s.store full]
    have bank := s.store.pointed_bank (field2 r.body 0 + field2 r.body 2) (storeEntries s.position
      (s.store.bank s.store.idleBank) (field2 r.body 0) (tab (field2 r.body 2) (wireEntry r.body)))
    exact (Store.pointed_stored _ _ _ _).trans (congrArg (fun b : Bank => { s.store.withBank s.store.idleBank b with
      pointer := min 1023 (field2 r.body 0 + storedCount (field2 r.body 0) (field2 r.body 2))
      pointerLocked := decide (1024 ≤ field2 r.body 0 + storedCount (field2 r.body 0) (field2 r.body 2)) }) bank.symm)
  case records =>
    rw [tapWrite_outcome s.position s.store full, tapWrite_counts s.position s.store full]
    rfl

/-! ### TAP-CLEAR and COPY-ACTIVE -/

/-- Settles O31: the range within the bank is vacated, and the rest of it counts as clamped. -/
theorem tapClearVacatesItsRange : Obligations.TapClearVacatesItsRange := by
  intro s r atHead still length full
  have executes : exec .tapClear s = .next (s.tapClear r) :=
    (running_atTableHead (fun s r => s.unlessFading (s.tapClear r)) atHead).trans
      (by rw [State.unlessFading_of_still still])
  have right : (r.body.length == 4) = true := by simp [length]
  rw [executes, State.tapClear, right, State.tableList_true]
  have inside : clearLength (field2 r.body 0) (field2 r.body 2) ≤ 1024 - field2 r.body 0 := Nat.min_le_right _ _
  have cleared := clearRange_getD full inside
  have bank : (s.store.withBank s.store.idleBank (clearRange (s.store.bank s.store.idleBank) (field2 r.body 0)
      (clearLength (field2 r.body 0) (field2 r.body 2)))).bank s.store.idleBank = _ :=
    (Store.withBank_bank _ _ _ _).trans (if_pos rfl)
  refine ⟨_, rfl, fun i => ?entry, ?store, rfl, rfl⟩
  case entry =>
    refine (congrArg (fun b : Bank => b.getD i none) bank).trans ((cleared i).trans ?_)
    by_cases ranged : field2 r.body 0 ≤ i ∧ i < field2 r.body 0 + field2 r.body 2
    · rw [if_pos ranged]
      by_cases present : i < 1024
      · rw [if_pos ⟨ranged.1, by unfold clearLength; omega⟩]
      · rw [List.getD_eq_default _ _ (by omega), ite_self]
    · rw [if_neg ranged, if_neg (by unfold clearLength; omega)]
  case store => exact congrArg (s.store.withBank s.store.idleBank) bank.symm

/-- Settles O32: a COPY-ACTIVE is one change of the SHADOW bank; during a fade the three records wait. -/
theorem copyActiveCopiesTheScene : Obligations.CopyActiveCopiesTheScene := by
  refine ⟨fun s r atHead still body => ?copies, fun s r fading => ⟨fun atHead => ?_, fun atHead => ?_, fun atHead => ?_⟩⟩
  case copies =>
    refine (running_atTableHead (fun s r => s.unlessFading (s.copyActive r)) atHead).trans ?_
    rw [State.unlessFading_of_still still, State.copyActive, body]
    rfl
  · exact (running_atTableHead (fun s r => s.unlessFading (s.tapWrite r)) atHead).trans
      (by rw [State.unlessFading_of_fading fading])
  · exact (running_atTableHead (fun s r => s.unlessFading (s.tapClear r)) atHead).trans
      (by rw [State.unlessFading_of_fading fading])
  · exact (running_atTableHead (fun s r => s.unlessFading (s.copyActive r)) atHead).trans
      (by rw [State.unlessFading_of_fading fading])

end Sys2Proof.Machine
end

section
/-! PROOF. SWAP and the map records, and the records of a wrong length (R6, R27, R28, R31 to R33, R165). -/

namespace Sys2Proof.Machine

open Sys2Proof.Safety

/-! ### Codes -/

theorem lineSourceOf_ring (n : Fin 128) : lineSourceOf 1 n.val = some (.ring n) :=
  congrArg (Option.map LineSource.ring) (asFin_val n)

theorem lineSourceOf_return (c : Fin 16) : lineSourceOf 2 c.val = some (.return c) :=
  congrArg (Option.map LineSource.return) (asFin_val c)

theorem lineSourceOf_ring_of_le {n : Nat} (beyond : 128 ≤ n) : lineSourceOf 1 n = none :=
  congrArg (Option.map LineSource.ring) (asFin_of_le beyond)

theorem lineSourceOf_return_of_le {n : Nat} (beyond : 16 ≤ n) : lineSourceOf 2 n = none :=
  congrArg (Option.map LineSource.return) (asFin_of_le beyond)

theorem lineSourceOf_of_le : ∀ {k : Nat} (n : Nat), 3 ≤ k → lineSourceOf k n = none
  | _ + 3, _, _ => rfl

theorem slotOf_val (n : Fin 128) : slotOf n.val = some (some n) := by
  rw [slotOf, if_neg (by omega), asFin_val]
  rfl

theorem groupOf_val (k : Fin 4) : groupOf k.val = some (some k) := by
  rw [groupOf, if_neg (by omega), asFin_val]
  rfl

theorem slotOf_of_invalid {code : Nat} (beyond : 127 < code) (named : code ≠ 255) : slotOf code = none := by
  rw [slotOf, if_neg named, asFin_of_le beyond]
  rfl

theorem groupOf_of_invalid {code : Nat} (beyond : 3 < code) (named : code ≠ 255) : groupOf code = none := by
  rw [groupOf, if_neg named, asFin_of_le beyond]
  rfl

/-! ### The channels of the node -/

theorem State.localChannel_of_own {s : State} {g : Nat} (own : g / 16 = s.position.val) :
    s.localChannel g = some ⟨g % 16, Nat.mod_lt _ (by decide)⟩ := if_pos own

theorem State.localChannel_of_foreign {s : State} {g : Nat} (foreign : g / 16 ≠ s.position.val) :
    s.localChannel g = none := if_neg foreign

/-! ### LINE-MAP and OUTPUT-MAP -/

/-- R6: an entry with a line and a source. -/
theorem lineMapEntry_of_valid (m : List LineSource) {e : List Byte} {source : LineSource} (line : byteAt e 0 < 64)
    (valid : lineSourceOf (byteAt e 1) (byteAt e 2) = some source) :
    lineMapEntry m e = (m.set (byteAt e 0) source, { written := true }) := by
  simp only [lineMapEntry, asFin_of_lt line, valid]

/-- R6: an entry without a line or a source is rejected. -/
theorem lineMapEntry_of_invalid (m : List LineSource) {e : List Byte}
    (invalid : 64 ≤ byteAt e 0 ∨ lineSourceOf (byteAt e 1) (byteAt e 2) = none) :
    lineMapEntry m e = (m, { rejected := true }) := by
  unfold lineMapEntry
  split
  next line source hline hsource =>
    rcases invalid with beyond | unknown
    · rw [asFin_of_le beyond] at hline
      nomatch hline
    · rw [unknown] at hsource
      nomatch hsource
  · rfl

/-- R27: an entry of the node's own channel with an invalid slot or group is rejected. -/
theorem outputMapEntry_of_invalid {owner : Nat → Option (Fin 16)} (channels : List Channel) {e : List Byte} {c : Fin 16}
    (owned : owner (byteAt e 0) = some c) (invalid : slotOf (byteAt e 1) = none ∨ groupOf (byteAt e 2) = none) :
    outputMapEntry owner channels e = (channels, { rejected := true }) := by
  unfold outputMapEntry
  rw [owned]
  dsimp only
  split
  next slot group hslot hgroup => simp [hslot, hgroup] at invalid
  · rfl

/-- R28: another channel holds the slot. -/
theorem slotTaken_iff (channels : List Channel) (c : Nat) (slot : Option (Fin 128)) : slotTaken channels c slot = true ↔
    slot ≠ none ∧ ∃ k < 16, k ≠ c ∧ (channels.getD k Channel.reset).slot = slot := by
  simp [slotTaken, Option.isSome_iff_ne_none]

/-- Settles O38: both records take their entries, and an entry maps its line or its channel alone. -/
theorem mapRecordsTakeTheirEntries : Obligations.MapRecordsTakeTheirEntries := by
  refine ⟨⟨fun s r atHead list => ?lineMap, fun s r atHead list => ?outputMap, fun m e =>
    ⟨fun source line valid => lineMapEntry_of_valid m line valid, lineMapEntry_of_invalid m, rfl, lineSourceOf_ring,
      lineSourceOf_return, fun n => ⟨lineSourceOf_ring_of_le, lineSourceOf_return_of_le⟩, fun k n beyond => lineSourceOf_of_le n beyond⟩⟩,
    fun s channels e full => ⟨fun foreign => ?foreign, fun own => ⟨fun invalid => ?invalid, fun slot group hslot hgroup => ?valid⟩,
      slotOf_val, rfl, groupOf_val, rfl⟩⟩
  case lineMap =>
    have executes : exec .lineMap s = .next (s.lineMap r) := running_atTableHead State.lineMap atHead
    rw [executes, State.lineMap, isList_of list, State.tableList_true]
    rfl
  case outputMap =>
    have executes : exec .outputMap s = .next (s.outputMap r) := running_atTableHead State.outputMap atHead
    rw [executes, State.outputMap, isList_of list, State.tableList_true]
    rfl
  case foreign => simp only [outputMapEntry, State.localChannel_of_foreign foreign]
  case invalid =>
    exact outputMapEntry_of_invalid channels (State.localChannel_of_own own)
      (invalid.imp (fun h => slotOf_of_invalid h.1 h.2) fun h => groupOf_of_invalid h.1 h.2)
  case valid =>
    refine ⟨_, _, outputMapEntry_of_valid channels (State.localChannel_of_own own) hslot hgroup, mapChannel_length _ _ _ _,
      rfl, slotTaken_iff _ _ _, fun k below => ?_⟩
    refine (mapChannel_getD _ _ _ _ below).trans ?_
    simp only [Option.isSome_iff_ne_none]

/-! ### SWAP -/

/-- R31: a fade code of a SWAP. -/
theorem fadeOf_exponent {code : Nat} (valid : code ≤ 6) : fadeOf code = some (.exponent code) := by
  rw [fadeOf, if_neg (by omega), if_pos valid]

theorem fadeOf_of_invalid {code : Nat} (beyond : 6 < code) (fading : code ≠ 255) : fadeOf code = none := by
  rw [fadeOf, if_neg fading, if_neg (by omega)]

/-- R31: a trigger code past the last, or an ON-COMPARE of no generator, is invalid. -/
theorem triggerOf_of_invalid {body : List Byte} (invalid : 2 < byteAt body 0 ∨ (byteAt body 0 = 2 ∧ 4 ≤ byteAt body 5)) :
    triggerOf body = none := by
  unfold triggerOf
  split
  next code => simp [code] at invalid
  next code => simp [code] at invalid
  next code =>
    rw [asFin_of_le (by omega)]
    rfl
  · rfl

/-- R33: a swap is late when it becomes pending by the block in progress, which a link in LOCKED has. -/
theorem State.lateNow_atBlock (s : State) (n : Block) :
    s.lateNow (.atBlock n) = decide (s.link.state = .locked ∧ ¬0 < (n - s.link.block).toInt) := by
  unfold State.lateNow State.blockInProgress
  by_cases locked : s.link.state = .locked
  · rw [if_pos locked]
    simp only [locked, true_and, blockAfter, blockBefore, decide_not]
  · rw [if_neg locked]
    simp only [locked, false_and, decide_false]

/-- R31: a SWAP at the head with none pending is checked for its length, its trigger and its fade. -/
theorem State.swapRecord_of_wrong {s : State} {r : Record} (still : s.store.swap = none) (wrong : r.body.length ≠ 7) :
    s.swapRecord r = { s with records := tableDone s r .malformed {} } := by
  rw [State.swapRecord, still]
  simp only [beq_eq_false_iff_ne.2 wrong, State.tableList_false]

theorem State.swapRecord_of_invalid {s : State} {r : Record} (still : s.store.swap = none) (length : r.body.length = 7)
    (invalid : triggerOf r.body = none ∨ fadeOf (byteAt r.body 6) = none) :
    s.swapRecord r = { s with records := tableDone s r .malformed {} } := by
  rw [State.swapRecord, still]
  simp only [beq_iff_eq.2 length, State.tableList_true]
  split
  next trigger fade htrigger hfade => simp [htrigger, hfade] at invalid
  · rfl

theorem State.swapRecord_of_valid {s : State} {r : Record} {trigger : Trigger} {fade : Fade} (still : s.store.swap = none)
    (length : r.body.length = 7) (htrigger : triggerOf r.body = some trigger)
    (hfade : fadeOf (byteAt r.body 6) = some fade) :
    s.swapRecord r = { s with store := { s.store with swap := some ⟨trigger, fade, s.lateNow trigger, r.tag, r.notify⟩ } } := by
  rw [State.swapRecord, still]
  simp only [beq_iff_eq.2 length, State.tableList_true, htrigger, hfade]
  rfl

/-- Settles O33: a SWAP becomes pending by its codes, once. -/
theorem swapBecomesPending : Obligations.SwapBecomesPending := by
  have executes {s : State} {r : Record} (atHead : AtTable s .swap r) : exec .swap s = .next (s.swapRecord r) :=
    running_atTableHead State.swapRecord atHead
  refine ⟨fun s r atHead pending => ?waits, fun s r atHead still length => ⟨fun trigger fade htrigger hfade => ?valid,
    fun invalid => ?invalid, fun code => ?next, fun code => ?atBlock, fun k code generator => ?onCompare,
    triggerOf_of_invalid, fadeOf_exponent, fun code => ?cut, fadeOf_of_invalid⟩⟩
  case waits =>
    obtain ⟨w, swap⟩ := Option.ne_none_iff_exists'.1 pending
    rw [executes atHead, State.swapRecord, swap]
  case valid =>
    rw [executes atHead, State.swapRecord_of_valid still length htrigger hfade]
    cases trigger with
    | next => rfl
    | atBlock n => rw [State.lateNow_atBlock]
    | onCompare k => rfl
  case invalid => rw [executes atHead, State.swapRecord_of_invalid still length invalid]
  case next => simp only [triggerOf, code]
  case atBlock => simp only [triggerOf, code]
  case onCompare => simp only [triggerOf, code, generator, asFin_val, Option.map_some]
  case cut => simp only [fadeOf, code, if_pos]

/-! ### Records of a wrong length -/

/-- R165: the length of a TAP-WRITE. -/
theorem tapWriteLength_of_wrong {body : List Byte} (wrong : body.length < 4 ∨ body.length ≠ 4 + 16 * field2 body 2) :
    tapWriteLength body = false := by
  rcases wrong with short | other
  · simp [tapWriteLength, Nat.not_le.2 short]
  · simp [tapWriteLength, other]

section
variable {s : State} {r : Record}

/-- R165: a table-class record whose length is wrong. -/
theorem running_tableList_wrong {op : Op} {f : State → Record → State} {ok : Bool} {g : State}
    (atHead : AtTable s op r) (checks : f s r = s.tableList r ok g) (wrong : ok = false) :
    s.running (fun s => s.atTableHead op (f s)) = .next { s with records := tableDone s r .malformed {} } :=
  (running_atTableHead f atHead).trans (by rw [checks, wrong, State.tableList_false])

/-- R165: a live-class record whose length is wrong. -/
theorem running_liveList_wrong {op : Op} {f : State → Record → State} {ok : Bool} {g : State}
    (atHead : AtLive s op r) (checks : f s r = s.liveList r ok g) (wrong : ok = false) :
    s.running (fun s => s.atLiveHead op (f s)) = .next { s with records := liveDone s r .malformed {} } :=
  (running_atLiveHead f atHead).trans (by rw [checks, wrong, State.liveList_false])

end

theorem isNotLength {n : Nat} {r : Record} (wrong : r.body.length ≠ n) : (r.body.length == n) = false :=
  beq_eq_false_iff_ne.2 wrong

/-- Settles O45: each record checks its length before it acts; a waiting one does so when it executes. -/
theorem wrongLengthIsMalformed : Obligations.WrongLengthIsMalformed := by
  refine ⟨fun s r => ⟨fun atHead still wrong => ?tapWrite, fun atHead still wrong => ?tapClear,
      fun atHead still wrong => ?copyActive, fun atHead still wrong => ?swap, fun atHead wrong => ?lineMap,
      fun atHead wrong => ?outputMap, fun atHead free wrong => ?memorySetup⟩,
    fun s r => ⟨fun atHead wrong => ?tapGain, fun atHead wrong => ?masterGain, fun atHead wrong => ?override,
      fun atHead wrong => ?guardSet, fun atHead wrong => ?guardRelease, fun atHead wrong => ?generatorSet,
      fun atHead wrong => ?generatorLoad, fun atHead wrong => ?rampSet, fun atHead wrong => ?cancelSwap,
      fun atHead free wrong => ?statusRead, fun atHead wrong => ?state⟩,
    fun s r rest released waiting body => ?restart⟩
  case tapWrite =>
    exact running_tableList_wrong (f := fun s r => s.unlessFading (s.tapWrite r)) (ok := tapWriteLength r.body) atHead
      (State.unlessFading_of_still still _) (tapWriteLength_of_wrong wrong)
  case tapClear =>
    exact running_tableList_wrong (f := fun s r => s.unlessFading (s.tapClear r)) (ok := r.body.length == 4) atHead
      (State.unlessFading_of_still still _) (isNotLength wrong)
  case copyActive =>
    exact running_tableList_wrong (f := fun s r => s.unlessFading (s.copyActive r)) (ok := r.body.length == 0) atHead
      (State.unlessFading_of_still still _) (isNotLength wrong)
  case swap => exact (running_atTableHead State.swapRecord atHead).trans (by rw [State.swapRecord_of_wrong still wrong])
  case lineMap =>
    exact running_tableList_wrong (f := State.lineMap) (ok := isList 3 r.body) atHead rfl (isList_of_not wrong)
  case outputMap =>
    exact running_tableList_wrong (f := State.outputMap) (ok := isList 3 r.body) atHead rfl (isList_of_not wrong)
  case memorySetup =>
    exact running_tableList_wrong (f := State.memorySetup) (ok := r.body.length == 3) atHead
      (if_neg (by simp [free])) (isNotLength wrong)
  case tapGain =>
    exact running_liveList_wrong (f := State.tapGain) (ok := isList 4 r.body) atHead rfl (isList_of_not wrong)
  case masterGain =>
    exact running_liveList_wrong (f := State.masterGain) (ok := isList 3 r.body) atHead rfl (isList_of_not wrong)
  case override =>
    exact running_liveList_wrong (f := State.override) (ok := decide (4 ≤ r.body.length)) atHead rfl
      (decide_eq_false (Nat.not_le.2 wrong))
  case guardSet =>
    exact running_liveList_wrong (f := State.guardSet) (ok := isList 9 r.body) atHead rfl (isList_of_not wrong)
  case guardRelease =>
    exact running_liveList_wrong (f := State.guardRelease) (ok := isList 2 r.body) atHead rfl (isList_of_not wrong)
  case generatorSet =>
    exact running_liveList_wrong (f := State.generatorSet) (ok := isList 9 r.body) atHead rfl (isList_of_not wrong)
  case generatorLoad =>
    exact running_liveList_wrong (f := State.generatorLoad) (ok := isList 4 r.body) atHead rfl (isList_of_not wrong)
  case rampSet =>
    exact running_liveList_wrong (f := State.rampSet) (ok := r.body.length == 2) atHead rfl (isNotLength wrong)
  case cancelSwap =>
    exact running_liveList_wrong (f := State.cancelSwap) (ok := r.body.length == 0) atHead rfl (isNotLength wrong)
  case statusRead =>
    exact running_liveList_wrong (f := State.statusRead) (ok := r.body.length == 1) atHead
      (if_neg (Nat.not_le.2 free)) (isNotLength wrong)
  case state =>
    have wrong : r.body.length ≠ 1 ∨ 4 ≤ byteAt r.body 0 := wrong.imp_right And.right
    exact ⟨running_stateRecord_malformed State.mute atHead wrong, running_stateRecord_malformed State.runNode atHead wrong,
      running_stateRecord_malformed State.quiesce atHead wrong, running_stateRecord_malformed State.wake atHead wrong⟩
  case restart =>
    refine (State.running_of_released released State.restart).trans (congrArg _ ?_)
    simp only [State.restart, waiting, if_neg body]
    rfl

end Sys2Proof.Machine
end

section
/-! PROOF. TAP-GAIN, MASTER-GAIN and OVERRIDE, and the entries they take (R24, R82 to R84, R121 to R123). -/

namespace Sys2Proof.Machine

open Sys2Proof.Safety

/-! ### What the entries leave -/

/-- R24: the entries of a TAP-GAIN change the stored gains and the ramps alone. -/
theorem tapGainEntry_rest (s : State) (e : List Byte) :
    (tapGainEntry s e).1 = { s with store := (tapGainEntry s e).1.store, ramps := (tapGainEntry s e).1.ramps } := by
  unfold tapGainEntry
  dsimp only
  split <;> rfl

/-- R84: the entries of a MASTER-GAIN change the set gains and the ramps alone. -/
theorem masterGainEntry_rest (s : State) (e : List Byte) :
    (masterGainEntry s e).1 = { s with store := (masterGainEntry s e).1.store, ramps := (masterGainEntry s e).1.ramps } := by
  unfold masterGainEntry
  split
  · rfl
  · dsimp only
    split <;> rfl

/-- R121, R122: the channels of an OVERRIDE change the channel table and the silence changes alone. -/
theorem overrideEntry_rest (m : OverrideMode) (line : Fin 64) (block : Bool) (s : State) (e : List Byte) :
    (overrideEntry m line block s e).1 =
      { s with store := (overrideEntry m line block s e).1.store, out := (overrideEntry m line block s e).1.out } := by
  unfold overrideEntry
  split <;> rfl

/-- Entries that change the store and the ramps alone do so one after another. -/
theorem takeEntries_store_ramps {f : State → List Byte → State × Mark}
    (rest : ∀ s e, (f s e).1 = { s with store := (f s e).1.store, ramps := (f s e).1.ramps }) (es : List (List Byte))
    (s : State) : (takeEntries f es 0 s {}).1 =
      { s with store := (takeEntries f es 0 s {}).1.store, ramps := (takeEntries f es 0 s {}).1.ramps } := by
  refine takeEntries_inv (P := fun t => t = { s with store := t.store, ramps := t.ramps }) (fun t e h => ?_) es 0 s {} rfl
  have changed := rest t e
  rw [h] at changed ⊢
  exact changed

/-- Channels that change the store and the output alone do so one after another. -/
theorem takeEntries_store_out {f : State → List Byte → State × Mark}
    (rest : ∀ s e, (f s e).1 = { s with store := (f s e).1.store, out := (f s e).1.out }) (es : List (List Byte))
    (s : State) : (takeEntries f es 0 s {}).1 =
      { s with store := (takeEntries f es 0 s {}).1.store, out := (takeEntries f es 0 s {}).1.out } := by
  refine takeEntries_inv (P := fun t => t = { s with store := t.store, out := t.out }) (fun t e h => ?_) es 0 s {} rfl
  have changed := rest t e
  rw [h] at changed ⊢
  exact changed

/-- R163: the completion of a record whose entries changed the store and the ramps alone. -/
theorem State.completeLive_of_store_ramps {s t : State} (rest : t = { s with store := t.store, ramps := t.ramps })
    (r : Record) (o : RecordOutcome) (c : Counts) :
    t.completeLive r o c = { s with store := t.store, ramps := t.ramps, records := liveDone s r o c } :=
  congrArg (fun u : State => u.completeLive r o c) rest

/-- R163: the completion of a record whose channels changed the store and the output alone. -/
theorem State.completeLive_of_store_out {s t : State} (rest : t = { s with store := t.store, out := t.out })
    (r : Record) (o : RecordOutcome) (c : Counts) :
    t.completeLive r o c = { s with store := t.store, out := t.out, records := liveDone s r o c } :=
  congrArg (fun u : State => u.completeLive r o c) rest

/-! ### The codes of an OVERRIDE -/

theorem noticeActionOf_of_le_one : ∀ {n : Nat}, n ≤ 1 → noticeActionOf n = some (n == 1)
  | 0, _ => rfl
  | 1, _ => rfl

theorem noticeActionOf_of_lt : ∀ {n : Nat}, 1 < n → noticeActionOf n = none
  | _ + 2, _ => rfl

theorem overrideModeOf_of_lt : ∀ {n : Nat}, 2 < n → overrideModeOf n = none
  | _ + 3, _ => rfl

/-- R121: an OVERRIDE with an unknown mode or timing, or of a line that is not one, is invalid. -/
theorem overrideOf_of_invalid {b : List Byte}
    (invalid : 2 < byteAt b 0 ∨ 1 < byteAt b 2 ∨ (byteAt b 0 = 2 ∧ 64 ≤ byteAt b 1)) : overrideOf b = none := by
  unfold overrideOf
  rcases invalid with mode | timing | ⟨monitor, line⟩
  · rw [overrideModeOf_of_lt mode]
  · rw [noticeActionOf_of_lt timing]
    cases overrideModeOf (byteAt b 0) with
    | none => rfl
    | some m => cases m <;> rfl
  · rw [monitor, asFin_of_le line]
    cases noticeActionOf (byteAt b 2) <;> rfl

/-- R121: an OVERRIDE of a right length with valid codes. -/
theorem State.override_of_valid {s : State} {r : Record} {m : OverrideMode} {line : Fin 64} {block : Bool}
    (long : 4 ≤ r.body.length) (valid : overrideOf r.body = some (m, line, block)) : s.override r =
      let x := takeEntries (overrideEntry m line block) (entriesOf 1 (r.body.drop 3)) 0 s {}
      x.1.completeLive r .done x.2.counts := by
  rw [State.override, decide_eq_true long, State.liveList_true, valid]

theorem State.override_of_invalid {s : State} {r : Record} (long : 4 ≤ r.body.length) (invalid : overrideOf r.body = none) :
    s.override r = { s with records := liveDone s r .malformed {} } := by
  rw [State.override, decide_eq_true long, State.liveList_true, invalid]
  rfl

/-- Settles O39: the three records take their entries in turn, and an OVERRIDE its channels under valid codes alone. -/
theorem gainAndOverrideRecordsTakeTheirEntries : Obligations.GainAndOverrideRecordsTakeTheirEntries := by
  refine ⟨fun s r atHead list => ?tapGain, fun s r atHead list => ?masterGain,
    fun s r m line block atHead long valid => ?override, fun s r atHead long invalid => ?invalid,
    fun b timing => ⟨fun mode => ⟨0, ?follow⟩, fun mode => ⟨0, ?silence⟩, fun line mode number => ?lineMonitor⟩⟩
  case tapGain =>
    have executes : exec .tapGain s = .next (s.tapGain r) := running_atLiveHead State.tapGain atHead
    rw [executes, State.tapGain, isList_of list, State.liveList_true]
    exact congrArg _ (State.completeLive_of_store_ramps (takeEntries_store_ramps tapGainEntry_rest _ s) r _ _)
  case masterGain =>
    have executes : exec .masterGain s = .next (s.masterGain r) := running_atLiveHead State.masterGain atHead
    rw [executes, State.masterGain, isList_of list, State.liveList_true]
    exact congrArg _ (State.completeLive_of_store_ramps (takeEntries_store_ramps masterGainEntry_rest _ s) r _ _)
  case override =>
    have executes : exec .override s = .next (s.override r) := running_atLiveHead State.override atHead
    rw [executes, State.override_of_valid long valid]
    exact congrArg _ (State.completeLive_of_store_out (takeEntries_store_out (overrideEntry_rest m line block) _ s) r _ _)
  case invalid =>
    exact (running_atLiveHead State.override atHead).trans
      (by rw [State.override_of_invalid long (overrideOf_of_invalid invalid)])
  case follow => simp only [overrideOf, mode, overrideModeOf, noticeActionOf_of_le_one timing]
  case silence => simp only [overrideOf, mode, overrideModeOf, noticeActionOf_of_le_one timing]
  case lineMonitor =>
    simp only [overrideOf, mode, overrideModeOf, number, asFin_val, noticeActionOf_of_le_one timing, Option.map_some]

/-! ### One entry -/

/-- R84: a pair of a MASTER-GAIN for one of the node's channels. -/
theorem masterGainEntry_of_own {s : State} {e : List Byte} (own : byteAt e 0 / 16 = s.position.val) :
    masterGainEntry s e = ({ s with
      store := s.store.withSetGain (byteAt e 0 % 16) (BitVec.ofNat 16 (field2 e 1))
      ramps := if s.records.node = .run then
          s.ramps.retargetMaster (byteAt e 0 % 16) (BitVec.ofNat 16 (field2 e 1) : Half).toNat
        else s.ramps }, { written := true }) := by
  simp only [masterGainEntry, State.localChannel_of_own own]
  by_cases playing : s.records.node = .run
  · rw [if_pos playing]
    exact congrArg (·, _) (if_pos playing)
  · rw [if_neg playing]
    exact congrArg (·, _) (if_neg playing)

/-- Settles O40: an entry acts on an ACTIVE tap or a channel of the node, and on no other. -/
theorem gainAndOverrideEntriesAct : Obligations.GainAndOverrideEntriesAct := by
  refine ⟨fun s e x active => ?tapGain, fun s e vacant => ?vacant, fun s e foreign => ⟨?foreignGain, fun m line block => ?foreignOverride⟩,
    fun s e own => ?masterGain, fun s e m line block own => ?override⟩
  case tapGain =>
    simp only [tapGainEntry, active, Ramps.retargetTap, Ramps.unitLen_eq]
    rfl
  case vacant => simp only [tapGainEntry, vacant]
  case foreignGain => simp only [masterGainEntry, State.localChannel_of_foreign foreign]
  case foreignOverride => simp only [overrideEntry, State.localChannel_of_foreign foreign]
  case masterGain =>
    exact ⟨_, masterGainEntry_of_own own, rfl, fun playing => if_pos playing, fun still => if_neg still, rfl⟩
  case override =>
    simp only [overrideEntry, State.localChannel_of_own own]
    refine ⟨_, rfl, rfl, rfl, fun timing => ?_, fun timing => ?_, rfl⟩
    · rw [timing]; rfl
    · rw [timing]; rfl

end Sys2Proof.Machine
end

section
/-! PROOF. GENERATOR-SET and GENERATOR-LOAD, and the modes and directions they write (R99, R103 to R105, Table 20). -/

namespace Sys2Proof.Machine

open Sys2Proof.Safety

/-! ### Codes -/

theorem genModeOf_of_lt : ∀ {n : Nat}, 3 < n → genModeOf n = none
  | _ + 4, _ => rfl

theorem directionOf_of_lt : ∀ {n : Nat}, 1 < n → directionOf n = none
  | _ + 2, _ => rfl

/-! ### A GENERATOR-SET entry -/

/-- R103: an entry of no generator, or with an unknown mode, direction or action, is rejected. -/
theorem genSetEntry_of_invalid (gens : List Generator) {e : List Byte}
    (invalid : 3 < byteAt e 0 ∨ 3 < byteAt e 1 ∨ 1 < byteAt e 6 ∨ 1 < byteAt e 7) :
    genSetEntry gens e = (gens, { rejected := true }) := by
  unfold genSetEntry
  split
  next k m d a hk hm hd ha =>
    rcases invalid with number | mode | direction | action
    · rw [asFin_of_le number] at hk
      nomatch hk
    · rw [genModeOf_of_lt mode] at hm
      nomatch hm
    · rw [directionOf_of_lt direction] at hd
      nomatch hd
    · rw [noticeActionOf_of_lt action] at ha
      nomatch ha
  · rfl

/-- R103, R104: a valid entry. -/
theorem genSetEntry_of_valid (gens : List Generator) {e : List Byte} {k : Fin 4} {m : GenMode} {d : Direction} {notice : Bool}
    (number : byteAt e 0 = k.val) (mode : genModeOf (byteAt e 1) = some m) (direction : directionOf (byteAt e 6) = some d)
    (action : noticeActionOf (byteAt e 7) = some notice) : genSetEntry gens e =
      (gens.set k.val ({ gens.getD k.val Generator.reset with
         pendingPeriod := clampPeriod (field2 e 2), compareValue := min 4095 (field2 e 4), compareDir := d,
         notice := notice, postscale := clampPostscale (byteAt e 8), postCount := 0 }.changeMode m),
       { written := true
         clamped := clampPeriod (field2 e 2) != field2 e 2 || min 4095 (field2 e 4) != field2 e 4 ||
           clampPostscale (byteAt e 8) != byteAt e 8 }) := by
  simp only [genSetEntry, number, asFin_val, mode, direction, action]

/-- R103: the values that a GENERATOR-SET brings into range. -/
theorem genSetClamps_iff (period value post : Nat) :
    (clampPeriod period != period || min 4095 value != value || clampPostscale post != post) = true ↔
      period < 1 ∨ 4095 < period ∨ 4095 < value ∨ post < 1 ∨ 16 < post := by
  simp only [Bool.or_eq_true, bne_iff_ne, clampPeriod, clampPostscale]
  omega

/-! ### A GENERATOR-LOAD entry -/

theorem genLoadEntry_of_invalid (gens : List Generator) {e : List Byte} (invalid : 3 < byteAt e 0 ∨ 1 < byteAt e 3) :
    genLoadEntry gens e = (gens, { rejected := true }) := by
  unfold genLoadEntry
  split
  next k d hk hd =>
    rcases invalid with number | direction
    · rw [asFin_of_le number] at hk
      nomatch hk
    · rw [directionOf_of_lt direction] at hd
      nomatch hd
  · rfl

theorem genLoadEntry_of_valid (gens : List Generator) {e : List Byte} {k : Fin 4} {d : Direction}
    (number : byteAt e 0 = k.val) (direction : directionOf (byteAt e 3) = some d) : genLoadEntry gens e =
      let g := gens.getD k.val Generator.reset
      (gens.set k.val { g with
        counter := min g.period (field2 e 1), dir := g.loadDirection (min g.period (field2 e 1)) d, postCount := 0 },
       { written := true, clamped := decide (g.period < field2 e 1) }) := by
  simp only [genLoadEntry, number, asFin_val, direction]

/-! ### Modes and directions -/

/-- Table 20: a mode written into a generator that is OFF. -/
theorem Generator.changeMode_of_off {g : Generator} {m : GenMode} (off : g.mode = .off) (on : m ≠ .off) :
    g.changeMode m = { g with mode := m, period := g.pendingPeriod, counter := 0, dir := .up } := by
  unfold Generator.changeMode
  rw [off]
  cases m with
  | off => exact absurd rfl on
  | ramp | single | triangle => rfl

/-- Table 20: OFF written into a generator that runs. -/
theorem Generator.changeMode_off {g : Generator} (on : g.mode ≠ .off) : g.changeMode .off = { g with mode := .off } := by
  unfold Generator.changeMode
  cases mode : g.mode with
  | off => exact absurd mode on
  | ramp | single | triangle => rfl

/-- Table 20: the mode that stands. -/
theorem Generator.changeMode_same {g : Generator} {m : GenMode} (same : m = g.mode) : g.changeMode m = g := by
  obtain ⟨mode, _, _, _, _, _, _, _, _, _⟩ := g
  subst same
  cases m <;> rfl

/-- Table 20: the other changes of mode of a generator that runs. -/
theorem Generator.changeMode_of_triangle {g : Generator} {m : GenMode} (running : g.mode = .triangle)
    (other : m = .ramp ∨ m = .single) : g.changeMode m = { g with mode := m, dir := .up } := by
  unfold Generator.changeMode
  rw [running]
  rcases other with rfl | rfl <;> rfl

theorem Generator.changeMode_triangle {g : Generator} (running : g.mode = .ramp ∨ g.mode = .single) :
    g.changeMode .triangle = { g with mode := .triangle, dir := if g.counter = g.period then .down else .up } := by
  unfold Generator.changeMode
  rcases running with mode | mode <;> rw [mode]

theorem Generator.changeMode_up {g : Generator} {m : GenMode}
    (running : (g.mode = .ramp ∧ m = .single) ∨ (g.mode = .single ∧ m = .ramp)) : g.changeMode m = { g with mode := m } := by
  unfold Generator.changeMode
  rcases running with ⟨mode, rfl⟩ | ⟨mode, rfl⟩ <;> rw [mode]

/-- R105: the direction that a load writes in RAMP and SINGLE. -/
theorem Generator.loadDirection_up {g : Generator} {c : Nat} {d : Direction} (running : g.mode = .ramp ∨ g.mode = .single) :
    g.loadDirection c d = .up := by
  unfold Generator.loadDirection
  rcases running with mode | mode <;> rw [mode]

/-- R105: the direction that a load writes in TRIANGLE turns at the ends. -/
theorem Generator.loadDirection_of_triangle {g : Generator} (running : g.mode = .triangle) (c : Nat) (d : Direction) :
    g.loadDirection c d = if c = g.period ∧ d = .up then .down else if c = 0 ∧ d = .down then .up else d := by
  unfold Generator.loadDirection
  rw [running]

/-- Settles O42: the entries go to their generators one after another, by their codes and by Table 20. -/
theorem generatorRecordsTakeTheirEntries : Obligations.GeneratorRecordsTakeTheirEntries := by
  refine ⟨⟨fun s r atHead list => ?set, fun s r atHead list => ?load,
      fun gens e => ⟨genSetEntry_of_invalid gens, fun k m d notice number mode direction action => ?setEntry⟩,
      fun gens e => ⟨genLoadEntry_of_invalid gens, fun k d number direction => genLoadEntry_of_valid gens number direction⟩⟩,
    fun g m => ⟨fun off same => Generator.changeMode_same (same.trans off.symm), Generator.changeMode_of_off,
      fun on off => off ▸ Generator.changeMode_off on, fun _ => Generator.changeMode_same, Generator.changeMode_of_triangle,
      fun running other => other ▸ Generator.changeMode_triangle running, Generator.changeMode_up⟩,
    fun g c d positive => ⟨fun off => ?off, Generator.loadDirection_up, fun running top => ?top, fun running bottom => ?bottom,
      fun running notBottom notTop => ?between⟩,
    rfl, rfl, rfl, rfl, rfl, rfl, rfl, rfl⟩
  case set =>
    have executes : exec .generatorSet s = .next (s.generatorSet r) := running_atLiveHead State.generatorSet atHead
    rw [executes, State.generatorSet, isList_of list, State.liveList_true]
    rfl
  case load =>
    have executes : exec .generatorLoad s = .next (s.generatorLoad r) := running_atLiveHead State.generatorLoad atHead
    rw [executes, State.generatorLoad, isList_of list, State.liveList_true]
    rfl
  case setEntry =>
    rw [genSetEntry_of_valid gens number mode direction action]
    exact ⟨rfl, rfl, genSetClamps_iff _ _ _⟩
  case off => rw [Generator.loadDirection, off]
  case top =>
    rw [Generator.loadDirection_of_triangle running]
    cases d <;> simp [top, Nat.pos_iff_ne_zero.1 positive]
  case bottom =>
    rw [Generator.loadDirection_of_triangle running]
    cases d <;> simp [bottom, (Nat.pos_iff_ne_zero.1 positive).symm]
  case between => simp [Generator.loadDirection_of_triangle running, notBottom, notTop]

end Sys2Proof.Machine
end

section
/-! PROOF. What a swap leaves of the banks, their ramps and the records (R35 to R38, R85). -/

namespace Sys2Proof.Machine

open Sys2Proof.Safety

/-! ### The equality of two states -/

/-- Two states are equal where their fields are. -/
theorem State.eq_iff {s t : State} : s = t ↔
    (s.pending = t.pending ∧ s.resetPin = t.resetPin ∧ s.position = t.position ∧ s.linkOut = t.linkOut ∧
      s.link = t.link ∧ s.records = t.records ∧ s.store = t.store ∧ s.lines = t.lines) ∧
    s.tap = t.tap ∧ s.ramps = t.ramps ∧ s.gens = t.gens ∧ s.out = t.out ∧ s.mem = t.mem ∧ s.dram = t.dram ∧
    s.powerCycle = t.powerCycle ∧ s.passSerial = t.passSerial := by
  cases s
  cases t
  simp only [State.mk.injEq]
  tauto

/-! ### The end of a fade before a swap -/

/-- R37, R38: the state in which a swap finds no fade in flight. -/
def State.settled (s : State) : State := if s.store.fade then s.endFade else s

/-- R38: a swap first ends a fade, and then exchanges the banks. -/
theorem State.takeSwap_settled (s : State) (w : PendingSwap) (o : RecordOutcome) (n : Block) : s.takeSwap w o n =
    let t := s.settled.exchangeBanks w.fade
    ((t.withStore { t.store with swap := none }).popTable.complete w.tag .swap w.notify o {}).queueNotice (.swap w.tag n) :=
  rfl

/-- R37: the end of a fade changes the fade, its mark and the ramps of the bank that is not ACTIVE. -/
theorem State.settled_eq (s : State) : s.settled = { s with
    store := { s.store with fade := s.settled.store.fade, endReady := s.settled.store.endReady }
    ramps := s.settled.ramps } := by
  unfold State.settled
  split <;> rfl

/-- R37: the end of a fade leaves the ramps of the ACTIVE bank. -/
theorem State.settled_taps (s : State) : s.settled.ramps.taps s.store.active = s.ramps.taps s.store.active := by
  unfold State.settled
  split
  · rw [State.endFade_taps, if_neg (otherBank_ne _).symm]
  · rfl

/-- R37: the end of a fade leaves the master ramps and the units. -/
theorem State.settled_masters (s : State) : s.settled.ramps.masters = s.ramps.masters ∧
    s.settled.ramps.unitA = s.ramps.unitA ∧ s.settled.ramps.unitB = s.ramps.unitB := by
  unfold State.settled
  split
  · exact Ramps.withTaps_rest _ _ _
  · exact ⟨rfl, rfl, rfl⟩

theorem State.settled_bank (s : State) (k : BankNo) : s.settled.store.bank k = s.store.bank k := by
  unfold State.settled
  split <;> rfl

theorem State.settled_active (s : State) : s.settled.store.active = s.store.active := by
  unfold State.settled
  split <;> rfl

/-! ### A swap -/

/-- R35: a swap leaves the banks as they stand and exchanges their roles. -/
theorem State.takeSwap_store (s : State) (w : PendingSwap) (o : RecordOutcome) (n : Block) : (s.takeSwap w o n).store =
    { s.store with active := otherBank s.store.active, fade := w.fade != .cut, endReady := false, swap := none } := by
  rw [State.takeSwap_settled]
  unfold State.settled
  split <;> rfl

/-- R36: the record that swapped leaves its queue and completes, before its SWAP notice. -/
theorem State.takeSwap_records (s : State) (w : PendingSwap) (o : RecordOutcome) (n : Block) : (s.takeSwap w o n).records =
    (({ s.records with table := s.records.table.drop 1 }.complete s.noticeBlock w.tag .swap w.notify o {}).queueNotice
      (.swap w.tag n)) := by
  rw [State.takeSwap_settled]
  unfold State.settled
  split <;> rfl

/-- R35: a swap changes the store, the ramps and the record engine alone. -/
theorem State.takeSwap_rest (s : State) (w : PendingSwap) (o : RecordOutcome) (n : Block) : s.takeSwap w o n =
    { s with store := (s.takeSwap w o n).store, ramps := (s.takeSwap w o n).ramps,
             records := (s.takeSwap w o n).records } := by
  simp [State.eq_iff]

/-- R85: the ramps of both banks after a swap. -/
theorem State.takeSwap_taps (s : State) (w : PendingSwap) (o : RecordOutcome) (n : Block) (k : BankNo) :
    (s.takeSwap w o n).ramps.taps k = if k = s.store.active then
      match w.fade with
      | .exponent x => (s.ramps.taps k).map (Option.map (outgoingRamp x))
      | .cut => noRamps
    else (s.store.bank k).map (Option.map (incomingRamp w.fade)) := by
  refine (s.settled.exchangeBanks_taps w.fade k).trans ?_
  rw [State.settled_active, State.settled_bank]
  by_cases active : k = s.store.active
  · subst active
    rw [State.settled_taps] <;> exact (if_pos rfl).trans (if_pos rfl).symm
  · rw [if_neg active, if_neg active]

/-- R85: a swap leaves the master ramps and the units. -/
theorem State.takeSwap_masters (s : State) (w : PendingSwap) (o : RecordOutcome) (n : Block) :
    (s.takeSwap w o n).ramps.masters = s.ramps.masters ∧ (s.takeSwap w o n).ramps.unitA = s.ramps.unitA ∧
    (s.takeSwap w o n).ramps.unitB = s.ramps.unitB := by
  have exchanged : (s.takeSwap w o n).ramps = s.settled.ramps.forSwap s.settled.store.idleBank
    (s.settled.store.bank s.settled.store.idleBank) w.fade := rfl
  rw [exchanged]
  simpa only [Ramps.forSwap, Ramps.withTaps_rest] using s.settled_masters

/-- Settles O35: a swap exchanges the roles, builds the ramps of both banks and completes its record. -/
theorem swapBuildsItsRamps : Obligations.SwapBuildsItsRamps := by
  intro s w o n
  obtain ⟨masters, unitA, unitB⟩ := s.takeSwap_masters w o n
  refine ⟨s.takeSwap_store w o n, fun i => ?incoming, fun i => ?outgoing, masters, unitA, unitB, s.takeSwap_records w o n,
    s.takeSwap_rest w o n⟩
  case incoming =>
    rw [State.takeSwap_taps, if_neg (otherBank_ne _), getD_map_option]
    rfl
  case outgoing =>
    rw [State.takeSwap_taps, if_pos rfl]
    cases w.fade with
    | exponent x => exact getD_map_option _ _ _
    | cut => exact getD_replicate_none _ _

end Sys2Proof.Machine
end

section
/-! PROOF. MUTE, RUN, QUIESCE and WAKE (R88, R89, R91, R92, R174, R175). -/

namespace Sys2Proof.Machine

open Sys2Proof.Safety

/-! ### MUTE -/

/-- R89: the check of the master ramps begins a drain, and does nothing else. -/
theorem State.muteCheck_eq (s : State) : s.muteCheck = { s with records := { s.records with
    drain := if s.records.node = .muting ∧ s.records.drain = none ∧ ∀ m ∈ s.ramps.masters, SilentRamp m then some 0
      else s.records.drain } } := by
  unfold State.muteCheck
  simp only [Ramps.mastersSilent_iff]
  split <;> rfl

/-- R88: a MUTE in RUN, but for the check of the master ramps. -/
def State.beginMuting (s : State) (r : Record) : State := { s with
  ramps := s.ramps.retargetMasters fun _ => 0
  records := { s.records with
    live := s.records.live.drop 1, node := .muting, awaitingMute := s.records.awaitingMute ++ [⟨r.tag, r.notify⟩] } }

theorem State.mute_of_run {s : State} (playing : s.records.node = .run) (r : Record) :
    s.mute r = (s.beginMuting r).muteCheck := by
  simp only [State.mute, playing]
  rfl

/-- Settles O46: a MUTE acts by the node state, and in RUN checks the master ramps at once. -/
theorem muteSilencesTheNode : Obligations.MuteSilencesTheNode := by
  intro s r atHead length code
  have executes : exec .stateMute s = .next (s.mute r) := running_stateRecord State.mute atHead length code (by decide)
  rw [executes]
  refine ⟨fun playing still => ?run, fun muting room => ?joins, fun muting full => ?busy, fun muted => ?muted,
    fun quiescent => ?quiescent⟩
  case run =>
    rw [State.mute_of_run playing, State.muteCheck_eq]
    exact ⟨_, rfl, rfl, rfl, by simp [State.beginMuting, still], rfl⟩
  case joins =>
    simp only [State.mute, muting, if_pos room]
    rw [← muting]
    rfl
  case busy =>
    simp only [State.mute, muting, if_neg (Nat.not_lt.2 full)]
    rfl
  case muted =>
    simp only [State.mute, muted]
    rfl
  case quiescent =>
    simp only [State.mute, quiescent]
    rfl

/-! ### RUN -/

/-- R89, R91: the records that await the mute complete one after another; one that asks for no notice of DONE queues none. -/
theorem State.completeMutes_eq (s : State) (o : RecordOutcome) : s.completeMutes o = { s with
    records := s.records.awaitingMute.foldl (fun q m => q.complete s.noticeBlock m.tag .state m.notify o {})
      { s.records with awaitingMute := [] } } := rfl

/-- The notice of a record that awaited the mute and is cancelled by a RUN. -/
def cancelledNotice (b : Block) (m : AwaitingMute) : Notice := .completion m.tag Op.state.code .cancelled {} b

/-- R91, R169: the records that await the mute, cancelled, queue a notice each. -/
theorem State.completeMutes_cancelled (s : State) : s.completeMutes .cancelled = { s with
    records := (s.records.awaitingMute.map (cancelledNotice s.noticeBlock)).foldl Records.queueNotice
      { s.records with awaitingMute := [] } } := by
  have step (q : Records) (m : AwaitingMute) : q.complete s.noticeBlock m.tag .state m.notify .cancelled {} =
      q.queueNotice (cancelledNotice s.noticeBlock m) := Records.complete_of_ne_done _ _ _ _ _ _ _ (by decide)
  rw [State.completeMutes_eq, List.foldl_map]
  simp only [step]

/-- Whether notices find a place does not depend on the live-class queue. -/
theorem queueNotices_withLive (ns : List Notice) (q : Records) (l : List Record) :
    { ns.foldl Records.queueNotice q with live := l } = ns.foldl Records.queueNotice { q with live := l } := by
  induction ns generalizing q with
  | nil => rfl
  | cons n ns ih => rw [List.foldl_cons, List.foldl_cons, ih, Records.queueNotice_withLive]

/-- R91: what a RUN makes of the master ramps, the node state and the drain. -/
theorem State.play_eq (s : State) : s.play = { s with
    ramps := s.ramps.retargetMasters fun c => ((s.store.channel c).setGain.toNat : Int)
    records := { s.records with node := .run, drain := none } } := rfl

/-- R91, R169: the record engine after a RUN in MUTING. -/
theorem State.run_muting_records (s : State) (r : Record) : ((s.play.completeMutes .cancelled).completeLive r .done {}).records =
    (s.records.awaitingMute.foldl
      (fun (q : Records) m => q.queueNotice (.completion m.tag Op.state.code .cancelled {} s.noticeBlock))
      { s.records with node := .run, drain := none, awaitingMute := [], live := s.records.live.drop 1 }).complete
        s.noticeBlock r.tag r.op r.notify .done {} := by
  let q : Records := { s.records with node := .run, drain := none, awaitingMute := [] }
  let ns := s.records.awaitingMute.map (cancelledNotice s.noticeBlock)
  have live : (ns.foldl Records.queueNotice q).live = s.records.live := (Records.queueNotices_keeps ns q).2.1
  have cancelled : ns.foldl Records.queueNotice { q with live := s.records.live.drop 1 } =
      s.records.awaitingMute.foldl
        (fun (q : Records) m => q.queueNotice (.completion m.tag Op.state.code .cancelled {} s.noticeBlock))
        { q with live := s.records.live.drop 1 } := List.foldl_map
  have completes : ((s.play.completeMutes .cancelled).completeLive r .done {}).records =
      { ns.foldl Records.queueNotice q with live := (ns.foldl Records.queueNotice q).live.drop 1 }.complete
        s.noticeBlock r.tag r.op r.notify .done {} := by
    rw [State.completeMutes_cancelled]
    rfl
  rw [completes, live, queueNotices_withLive, cancelled]

/-- Settles O48: a RUN acts by the node state, and cancels the mutes that wait before it completes. -/
theorem runRaisesTheMasters : Obligations.RunRaisesTheMasters := by
  intro s r atHead length code
  have executes : exec .stateRun s = .next (s.runNode r) := running_stateRecord State.runNode atHead length code (by decide)
  rw [executes]
  refine ⟨fun silent => ?plays, fun playing => ?run, fun quiescent => ?quiescent⟩
  case plays =>
    rcases silent with muted | muting
    · simp only [State.runNode, muted]
      have done := sameButNotices_complete { s.play.records with live := s.records.live.drop 1 } s.noticeBlock r.tag r.op
        r.notify .done {}
      exact ⟨_, rfl, rfl, rfl, done.node, done.drain, done.live, fun _ => rfl, fun muting => (nomatch muting), rfl⟩
    · simp only [State.runNode, muting]
      have records := s.run_muting_records r
      generalize done : (s.play.completeMutes .cancelled).completeLive r .done {} = t at records
      have rest : t = { s with ramps := t.ramps, records := t.records } := by rw [← done]; rfl
      have fields : t.records.node = .run ∧ t.records.drain = none ∧ t.records.live = s.records.live.drop 1 ∧
          t.records.awaitingMute = [] := by
        simp [← done, State.completeLive_eq, liveDone, State.completeMutes_cancelled, State.play_eq]
      have ramps : t.ramps = s.ramps.retargetMasters fun c => ((s.store.channel c).setGain.toNat : Int) := by
        rw [← done]
        rfl
      obtain ⟨node, drain, live, awaiting⟩ := fields
      exact ⟨t, rfl, congrArg Ramps.masters ramps, ramps.trans (congrArg _ (congrArg Ramps.masters ramps).symm), node, drain,
        live, fun muted => (nomatch muted), fun _ => ⟨awaiting, records⟩, rest⟩
  case run =>
    simp only [State.runNode, playing]
    rfl
  case quiescent =>
    simp only [State.runNode, quiescent]
    rfl

/-! ### QUIESCE and WAKE -/

/-- R174: a QUIESCE in MUTED. -/
theorem State.quiesce_of_muted {s : State} (muted : s.records.node = .muted) (r : Record) : s.quiesce r =
    ({ s with
      mem := s.mem.quiesce
      records := liveDone { s with records := { s.records with node := .quiescent } } r .done { written := 1 } } :
      State).advanceMem := by
  simp only [State.quiesce, muted]
  rfl

theorem State.quiesce_of_ne {s : State} (other : s.records.node ≠ .muted) (r : Record) :
    s.quiesce r = { s with records := liveDone s r .order {} } := by
  unfold State.quiesce
  split
  next muted => exact absurd muted other
  · rfl
  · rfl
  · rfl

/-- R12, R175: a WAKE in QUIESCENT. -/
theorem State.wake_of_quiescent {s : State} (quiescent : s.records.node = .quiescent) (r : Record) : s.wake r =
    ({ s with
      mem := s.mem.wake
      lines := { s.lines with floor := if s.link.state = .locked then s.link.block else s.lines.floor }
      records := liveDone { s with records := { s.records with node := .muted } } r .done { written := 1 } } :
      State).advanceMem := by
  simp only [State.wake, quiescent, State.floorToProgress_eq]
  rfl

theorem State.wake_of_ne {s : State} (other : s.records.node ≠ .quiescent) (r : Record) :
    s.wake r = { s with records := liveDone s r .done {} } := by
  unfold State.wake
  split
  next quiescent => exact absurd quiescent other
  · rfl
  · rfl
  · rfl

/-- Settles O49: both requests act in one node state alone, on the node, the request and the memory. -/
theorem quiesceAndWakeMoveTheMemory : Obligations.QuiesceAndWakeMoveTheMemory := by
  refine ⟨fun s r atHead length code => ?quiesce, fun s r atHead length code => ?wake⟩
  case quiesce =>
    have executes : exec .stateQuiesce s = .next (s.quiesce r) :=
      running_stateRecord State.quiesce atHead length code (by decide)
    refine ⟨fun muted => ?_, fun other => executes.trans (by rw [State.quiesce_of_ne other])⟩
    rw [State.quiesce_of_muted muted] at executes
    obtain ⟨_, _, _, request⟩ := s.mem.quiesce.advance_keeps _
    exact ⟨_, executes, request, goesOn_of_advanceMem rfl rfl, rfl, rfl⟩
  case wake =>
    have executes : exec .stateWake s = .next (s.wake r) := running_stateRecord State.wake atHead length code (by decide)
    refine ⟨fun quiescent => ?_, fun other => executes.trans (by rw [State.wake_of_ne other])⟩
    rw [State.wake_of_quiescent quiescent] at executes
    obtain ⟨_, _, _, awake, _⟩ := s.mem.wake_keeps
    obtain ⟨_, _, _, request⟩ := s.mem.wake.advance_keeps _
    exact ⟨_, executes, request.trans awake, State.wake_woken s _ rfl, rfl, rfl, rfl⟩

end Sys2Proof.Machine
end

section
/-! PROOF. RESTART and STATUS-READ (R164, R166 to R168, R177, Table 39). -/

namespace Sys2Proof.Machine

open Sys2Proof.Safety

/-! ### RESTART -/

/-- R57, R58, R168: every block as a RESTART leaves it, from the state it finds. -/
theorem State.restartBlocks_eq (s : State) : s.restartBlocks = { s with
    link := { s.link with damagedFrames := 0, missingFrames := 0, lossEvents := 0, damagedCells := 0 }
    records := { Records.reset with restarts := s.records.restarts }
    store := Store.reset
    lines := ⟨List.replicate 64 .none, if s.link.state = .locked then s.link.block else s.lines.floor⟩
    tap := { s.abandonPass.tap with acc := clearedAccumulators, cursor := ⟨0, 0⟩, cutCount := 0, cutRun := 0 }
    ramps := Ramps.reset
    gens := List.replicate 4 Generator.reset
    out := { Output.reset with guardB := s.abandonPass.out.guardB, copy := s.out.copy,
                               recording := s.abandonPass.out.recording, recorded := s.abandonPass.out.recorded }
    mem := s.mem.wake } := by
  rw [State.restartBlocks, State.floorToProgress_eq]
  simp [Lines.reset]

/-- R168: a RESTART without a body. -/
theorem State.restart_of_empty {s : State} {r : Record} {rest : List Record} (waiting : s.records.restarts = r :: rest)
    (body : r.body = []) : s.restart =
      (((s.withRecords { s.records with restarts := rest }).restartBlocks).queueNotice
        (.restarted r.tag s.noticeBlock)).advanceMem := by
  simp only [State.restart, waiting, if_pos body]
  rfl

/-- Settles O51: a RESTART abandons the pass and gives every block its values; one notice stands in the fresh queue. -/
theorem restartClearsTheNode : Obligations.RestartClearsTheNode := by
  refine ⟨fun s none => ?idle, fun s r rest released matched waiting body => ?clears⟩
  case idle => exact State.running_of_unchanged (by simp only [State.restart, none])
  case clears =>
    have executes : exec .restart s = .next s.restart := State.running_of_released released State.restart
    rw [State.restart_of_empty waiting body, State.restartBlocks_eq] at executes
    obtain ⟨pass, _, _, idle⟩ := (s.withRecords { s.records with restarts := rest }).abandonPass_tap
    have ending := (s.withRecords { s.records with restarts := rest }).abandonPass_ending
    obtain ⟨_, _, _, awake, _⟩ := s.mem.wake_keeps
    obtain ⟨_, _, _, request⟩ := s.mem.wake.advance_keeps _
    exact ⟨_, executes, rfl, rfl, rfl, rfl, rfl, rfl, idle matched, pass, rfl, rfl, rfl, rfl, ending, rfl, rfl, rfl, rfl, rfl,
      rfl, rfl, rfl, request.trans awake, State.wake_woken s _ rfl, rfl, rfl, rfl, rfl⟩

end Sys2Proof.Machine
end

section
/-! PROOF. Bytes that stand at an offset, and the body of a STATUS notice (Table 39). -/

namespace Sys2Proof.Machine

open Sys2Proof.Safety

/-! ### Bytes that stand at an offset -/

/-- The bytes `l` stand in `b` from offset `i` on. -/
def Carries (b : List Byte) (i : Nat) (l : List Byte) : Prop := ∀ j < l.length, b.getD (i + j) 0 = l.getD j 0

theorem carries_self (b : List Byte) : Carries b 0 b := fun j _ => by rw [Nat.zero_add]

/-- Two pieces stand one behind the other. -/
theorem carries_append {b : List Byte} {i : Nat} {l m : List Byte} :
    Carries b i (l ++ m) ↔ Carries b i l ∧ Carries b (i + l.length) m := by
  constructor
  · intro h
    refine ⟨fun j below => ?_, fun j below => ?_⟩
    · rw [h j (by rw [List.length_append]; omega), List.getD_append _ _ _ _ below]
    · rw [Nat.add_assoc, h (l.length + j) (by rw [List.length_append]; omega),
        List.getD_append_right _ _ _ _ (Nat.le_add_right _ _), Nat.add_sub_cancel_left]
  · rintro ⟨first, second⟩ j below
    by_cases inFirst : j < l.length
    · rw [first j inFirst, List.getD_append _ _ _ _ inFirst]
    · rw [List.length_append] at below
      have shifted := second (j - l.length) (by omega)
      rw [List.getD_append_right _ _ _ _ (Nat.le_of_not_lt inFirst), ← shifted]
      congr 1
      omega

/-- Pieces of one length stand at multiples of it. -/
theorem Carries.piece {b : List Byte} {i n m : Nat} {f : Nat → List Byte} (length : ∀ k, (f k).length = m)
    (h : Carries b i ((List.range n).flatMap f)) {k : Nat} (below : k < n) : Carries b (i + m * k) (f k) := by
  induction n with
  | zero => omega
  | succ n ih =>
    rw [List.range_succ, List.flatMap_append, carries_append] at h
    obtain ⟨before, last⟩ := h
    by_cases inside : k < n
    · exact ih before inside
    · have last_eq : k = n := by omega
      subst last_eq
      have total : ((List.range k).flatMap f).length = m * k := by
        simp [List.length_flatMap, length, Nat.mul_comm]
      rw [total] at last
      simpa using last

section
variable {b : List Byte} {i n : Nat}

theorem Carries.byte {x : Byte} (h : Carries b i [x]) : b.getD i 0 = x := h 0 (by simp)

theorem Carries.byteAt (h : Carries b i (put1 n)) : byteAt b i = n % 256 := by
  rw [Machine.byteAt, Carries.byte h, BitVec.toNat_ofNat]

theorem Carries.field2 (h : Carries b i (put2 n)) : field2 b i = n % 65536 := by
  have high : b.getD i 0 = BitVec.ofNat 8 (n / 256) := h 0 (by simp [put2])
  have low : b.getD (i + 1) 0 = BitVec.ofNat 8 n := h 1 (by simp [put2])
  rw [Machine.field2, Machine.byteAt, Machine.byteAt, high, low, BitVec.toNat_ofNat, BitVec.toNat_ofNat]
  omega

theorem Carries.field3 (h : Carries b i (put3 n)) : field3 b i = n % 16777216 := by
  obtain ⟨high, low⟩ := carries_append.1 (show Carries b i (put1 (n / 65536) ++ put2 n) from h)
  rw [Machine.field3, high.byteAt, Carries.field2 (i := i + 1) low]
  omega

theorem Carries.field4 (h : Carries b i (put4 n)) : field4 b i = n % 4294967296 := by
  obtain ⟨high, low⟩ := carries_append.1 h
  rw [Machine.field4, high.field2, Carries.field2 (i := i + 2) low]
  omega

theorem Carries.half {x : Half} (h : Carries b i (put2 x.toNat)) : Machine.field2 b i = x.toNat :=
  h.field2.trans (Nat.mod_eq_of_lt x.isLt)

theorem Carries.block {x : Block} (h : Carries b i (put4 x.toNat)) : Machine.field4 b i = x.toNat :=
  h.field4.trans (Nat.mod_eq_of_lt x.isLt)

end

theorem put1_length (n : Nat) : (put1 n).length = 1 := rfl
theorem put2_length (n : Nat) : (put2 n).length = 2 := rfl
theorem put3_length (n : Nat) : (put3 n).length = 3 := rfl
theorem put4_length (n : Nat) : (put4 n).length = 4 := rfl

/-! ### Bytes of flags and codes -/

/-- Table 39: the flags of byte 25. -/
theorem statusFlags : ∀ a b c d e f : Bool,
    let x : Byte := BitVec.ofNat 8 (bit a 1 + bit b 2 + bit c 4 + bit d 8 + bit e 16 + bit f 32)
    x.getLsbD 0 = a ∧ x.getLsbD 1 = b ∧ x.getLsbD 2 = c ∧ x.getLsbD 3 = d ∧ x.getLsbD 4 = e ∧ x.getLsbD 5 = f ∧ x.toNat < 64 := by
  decide

/-- Table 39: the override byte of a channel. -/
theorem overrideByte : ∀ code < 3, ∀ silent : Bool, ∀ change < 3,
    let x : Byte := BitVec.ofNat 8 (code + bit silent 4 + 8 * change)
    x.toNat % 4 = code ∧ x.getLsbD 2 = silent ∧ x.toNat / 8 = change := by
  decide

/-- Table 39: the mode byte of a generator. -/
theorem modeByte : ∀ code < 4, ∀ dir < 2, ∀ compareDir < 2, ∀ notice : Bool,
    let x : Byte := BitVec.ofNat 8 (code + 16 * dir + 32 * compareDir + bit notice 64)
    x.toNat % 16 = code ∧ x.getLsbD 4 = (dir == 1) ∧ x.getLsbD 5 = (compareDir == 1) ∧ x.getLsbD 6 = notice ∧ x.toNat < 128 := by
  decide

/-- Table 39: the byte of a guard source. -/
theorem sourceByte : ∀ enable blocks tripped : Bool, ∀ code < 5,
    let x : Byte := BitVec.ofNat 8 (bit enable 1 + bit blocks 2 + 4 * code + bit tripped 32)
    x.getLsbD 0 = enable ∧ x.getLsbD 1 = blocks ∧ x.getLsbD 5 = tripped ∧ x.toNat < 64 ∧ x.toNat / 4 % 8 = code := by
  decide

/-! ### The units of a STATUS body -/

theorem statusChannel_length (s : State) (c : Nat) : (statusChannel s c).length = 8 := rfl

theorem statusGenerator_length (g : Generator) : (statusGenerator g).length = 10 := rfl

theorem statusGroup_length (g : GuardGroup) : (statusGroup g).length = 7 := rfl

/-- The code of a pending silence change. -/
def changeCode : Option Bool → Nat
  | none => 0
  | some true => 1
  | some false => 2

theorem changeCode_lt : ∀ x : Option Bool, changeCode x < 3 := by decide

theorem OverrideMode.code_lt (m : OverrideMode) : m.code < 3 := by cases m <;> decide

theorem GenMode.code_lt (m : GenMode) : m.code < 4 := by cases m <;> decide

theorem Direction.code_lt (d : Direction) : d.code < 2 := by cases d <;> decide

theorem Direction.code_eq_one (d : Direction) : (d.code == 1) = (d == .down) := by cases d <;> rfl

/-- Table 39: the bytes of a channel. -/
theorem channelBytes {s : State} {b : List Byte} {c i : Nat} (h : Carries b i (statusChannel s c)) :
    ChannelBytes s b c i := by
  have spelled : statusChannel s c = put2 (s.out.saturation.getD c 0).toNat ++ put2 (s.store.channel c).setGain.toNat
      ++ put2 (s.ramps.masters.getD c Ramp.idleAtZero).current.toNat
      ++ put1 ((s.store.channel c).override.code + bit (s.out.silence.getD c false) 4
        + 8 * changeCode (s.out.silencePending.getD c none)) ++ put1 (s.store.channel c).monitorLine.val := by
    unfold statusChannel
    cases s.out.silencePending.getD c none with
    | none => rfl
    | some change => cases change <;> rfl
  rw [spelled] at h
  simp only [carries_append, List.length_append, put1_length, put2_length, Nat.reduceAdd] at h
  obtain ⟨⟨⟨⟨saturation, setGain⟩, gain⟩, mode⟩, line⟩ := h
  obtain ⟨code, silent, change⟩ := overrideByte _ (s.store.channel c).override.code_lt (s.out.silence.getD c false) _
    (changeCode_lt (s.out.silencePending.getD c none))
  have byte := Carries.byte mode
  refine ⟨saturation.half, setGain.half, gain.field2, ?_, ?_, ?_, ?_⟩
  · rw [byteAt, byte, code]
    rfl
  · rw [byte, silent]
  · rw [byteAt, byte, change]
    rfl
  · rw [line.byteAt]
    omega

/-- Table 39: the bytes of a generator with its fields in range. -/
theorem generatorBytes {b : List Byte} {g : Generator} {i : Nat} (h : Carries b i (statusGenerator g))
    (legal : GeneratorLegal g) : GeneratorBytes g b i := by
  unfold statusGenerator at h
  simp only [carries_append, List.length_append, put1_length, put2_length, Nat.reduceAdd] at h
  obtain ⟨⟨⟨⟨⟨mode, period⟩, pendingPeriod⟩, counter⟩, compareValue⟩, postscale⟩ := h
  obtain ⟨code, dir, compareDir, notice, small⟩ := modeByte _ g.mode.code_lt _ g.dir.code_lt _ g.compareDir.code_lt g.notice
  have byte := Carries.byte mode
  obtain ⟨_, periodHigh⟩ := legal.period
  obtain ⟨_, pendingHigh⟩ := legal.pendingPeriod
  have counterHigh := legal.counter
  have compareHigh := legal.compareValue
  obtain ⟨postLow, postHigh⟩ := legal.postscale
  have postCount := legal.postCount
  refine ⟨?_, ⟨?_, ?_, ?_, ?_⟩, ⟨?_, ?_⟩, ⟨?_, ?_⟩, ?_, ?_⟩
  · rw [byteAt, byte, code]
    rfl
  · rw [byte, dir, Direction.code_eq_one]
  · rw [byte, compareDir, Direction.code_eq_one]
  · rw [byte, notice]
  · rw [byteAt, byte]
    exact small
  · rw [period.field2]; omega
  · rw [pendingPeriod.field2]; omega
  · rw [counter.field2]; omega
  · rw [compareValue.field2]; omega
  · rw [postscale.byteAt]; omega
  · rw [postscale.byteAt]; omega

/-- Table 39: the byte of a guard source with its action in range. -/
theorem sourceByte_says {b : List Byte} {i : Nat} {enable tripped : Bool} {m : GuardMode} {a : GuardAction}
    (h : Carries b i (guardSourceByte enable m a tripped)) (legal : a.code < 5) :
    SourceByte (b.getD i 0) enable m a tripped := by
  obtain ⟨enables, blocks, trips, small, code⟩ := sourceByte enable (m == .block) tripped _ legal
  have byte := Carries.byte h
  rw [byte]
  refine ⟨enables, blocks, trips, small, code.trans ?_⟩
  cases a <;> rfl

/-- Table 39: the bytes of a guard group with its fields in range. -/
theorem groupBytes {b : List Byte} {g : GuardGroup} {i : Nat} (h : Carries b i (statusGroup g)) (legal : GuardLegal g) :
    GroupBytes g b i := by
  have source (enable : Bool) (m : GuardMode) (a : GuardAction) (tripped : Bool) :
      (guardSourceByte enable m a tripped).length = 1 := rfl
  unfold statusGroup at h
  simp only [carries_append, List.length_append, source, put1_length, put3_length, Nat.reduceAdd] at h
  obtain ⟨⟨⟨⟨a, threshold⟩, limit⟩, count⟩, b⟩ := h
  have action (x : GuardAction) (here : x = g.aAction ∨ x = g.bAction) : x.code < 5 := by
    cases x with
    | mute => decide
    | attenuate n =>
      have range := legal.action n (here.imp Eq.symm Eq.symm)
      exact Nat.lt_succ_of_le range.2
  have settings := legal.threshold
  have limits := legal.limit
  have counts := legal.count
  refine ⟨sourceByte_says a (action _ (.inl rfl)), ⟨?_, ?_, ?_⟩, sourceByte_says b (action _ (.inr rfl))⟩
  · rw [threshold.field3]; omega
  · rw [limit.byteAt]; omega
  · rw [count.byteAt]; omega

/-! ### The body of a STATUS notice -/

theorem statusNodeAndMemory_length (s : State) : (statusNodeAndMemory s).length = 6 := rfl

theorem statusLink_length (s : State) : (statusLink s).length = 19 := rfl

theorem statusBits_length (s : State) : (statusBits s).length = 1 := rfl

theorem statusSwap_length (w : Option PendingSwap) : (statusSwap w).length = 7 := by
  cases w with
  | none => rfl
  | some w =>
    obtain ⟨trigger, _, _, _, _⟩ := w
    cases trigger <;> rfl

/-- The pieces of a list, of one length each, have its length together. -/
theorem flatMap_length {f : Nat → List Byte} {m : Nat} (length : ∀ k, (f k).length = m) (n : Nat) :
    ((List.range n).flatMap f).length = n * m := by
  simp [List.length_flatMap, length]

/-- Where the parts of a STATUS body stand. -/
structure StatusParts (s : State) (b : List Byte) : Prop where
  nodeAndMemory : Carries b 0 (statusNodeAndMemory s)
  link : Carries b 6 (statusLink s)
  bits : Carries b 25 (statusBits s)
  swap : Carries b 26 (statusSwap s.store.swap)
  pointer : Carries b 33 (put2 s.store.pointer)
  cutCount : Carries b 35 (put2 s.tap.cutCount.toNat)
  cutRun : Carries b 37 (put2 s.tap.cutRun.toNat)
  unitA : Carries b 39 (put1 s.ramps.unitA)
  unitB : Carries b 40 (put1 s.ramps.unitB)
  channels : Carries b 41 ((List.range 16).flatMap (statusChannel s))
  gens : Carries b 169 ((List.range 4).flatMap (fun k => statusGenerator (s.gens.getD k Generator.reset)))
  groups : Carries b 209 ((List.range 4).flatMap (fun k => statusGroup (s.out.group k)))

theorem statusParts_of_carries {s : State} {b : List Byte} (h : Carries b 0 s.statusBody) : StatusParts s b := by
  unfold State.statusBody at h
  simp only [carries_append, List.length_append, statusNodeAndMemory_length, statusLink_length, statusBits_length,
    statusSwap_length, put1_length, put2_length, flatMap_length (statusChannel_length s),
    flatMap_length (fun k => statusGenerator_length (s.gens.getD k Generator.reset)), Nat.reduceAdd, Nat.reduceMul] at h
  obtain ⟨⟨⟨⟨⟨⟨⟨⟨⟨⟨⟨nodeAndMemory, link⟩, bits⟩, swap⟩, pointer⟩, cutCount⟩, cutRun⟩, unitA⟩, unitB⟩, channels⟩, gens⟩, groups⟩ := h
  exact ⟨nodeAndMemory, link, bits, swap, pointer, cutCount, cutRun, unitA, unitB, channels, gens, groups⟩

/-- Table 39: a STATUS body has 237 bytes. -/
theorem statusBody_length (s : State) : s.statusBody.length = 237 := by
  unfold State.statusBody
  simp only [List.length_append, statusNodeAndMemory_length, statusLink_length, statusBits_length, statusSwap_length,
    put1_length, put2_length, flatMap_length (statusChannel_length s),
    flatMap_length (fun k => statusGenerator_length (s.gens.getD k Generator.reset)),
    flatMap_length (fun k => statusGroup_length (s.out.group k))]

section
variable {s : State} {b : List Byte} {i : Nat}

/-- Table 39, offsets 0 to 5. -/
theorem statusNodeAndMemory_says (h : Carries b 0 (statusNodeAndMemory s)) :
    byteAt b 0 = s.records.node.code ∧ byteAt b 1 = s.mem.state.code ∧ byteAt b 2 = s.mem.refreshCount % 256 ∧
    byteAt b 3 = s.mem.interval.code ∧ byteAt b 4 = s.mem.latency % 256 ∧ byteAt b 5 = s.mem.owed % 256 := by
  unfold statusNodeAndMemory at h
  simp only [carries_append, List.length_append, put1_length, Nat.reduceAdd] at h
  obtain ⟨⟨⟨⟨⟨node, memory⟩, count⟩, interval⟩, latency⟩, owed⟩ := h
  refine ⟨node.byteAt.trans ?_, memory.byteAt.trans ?_, count.byteAt, interval.byteAt.trans ?_, latency.byteAt, owed.byteAt⟩
  · cases s.records.node <;> rfl
  · cases s.mem.state <;> rfl
  · cases s.mem.interval <;> rfl

/-- Table 39, offsets 6 to 24. -/
theorem statusLink_says (h : Carries b 6 (statusLink s)) :
    (byteAt b 6 = s.link.state.code ∧ byteAt b 7 = s.link.expected % 256 ∧ byteAt b 8 = s.link.badRun % 256) ∧
    (field4 b 9 = s.link.block.toNat ∧ field4 b 13 = s.lines.floor.toNat) ∧
    field2 b 17 = s.link.damagedFrames.toNat ∧ field2 b 19 = s.link.missingFrames.toNat ∧
    field2 b 21 = s.link.lossEvents.toNat ∧ field2 b 23 = s.link.damagedCells.toNat := by
  unfold statusLink at h
  simp only [carries_append, List.length_append, put1_length, put2_length, put4_length, Nat.reduceAdd] at h
  obtain ⟨⟨⟨⟨⟨⟨⟨⟨state, expected⟩, badRun⟩, block⟩, floor⟩, damaged⟩, missing⟩, losses⟩, cells⟩ := h
  refine ⟨⟨state.byteAt.trans ?_, expected.byteAt, badRun.byteAt⟩, ⟨block.block, floor.block⟩, damaged.half, missing.half,
    losses.half, cells.half⟩
  cases s.link.state <;> rfl

/-- Table 39, offsets 26 to 32, with a swap pending. -/
theorem statusSwap_says {w : PendingSwap} (h : Carries b 26 (statusSwap (some w))) :
    (w.trigger = .next → byteAt b 26 = 0 ∧ field4 b 27 = 0 ∧ byteAt b 31 = 0) ∧
    (∀ n, w.trigger = .atBlock n → byteAt b 26 = 1 ∧ field4 b 27 = n.toNat ∧ byteAt b 31 = 0) ∧
    (∀ k, w.trigger = .onCompare k → byteAt b 26 = 2 ∧ field4 b 27 = 0 ∧ byteAt b 31 = k.val) ∧
    byteAt b 32 = w.fade.code % 256 := by
  unfold statusSwap at h
  cases trigger : w.trigger with
  | next =>
    simp only [trigger, carries_append, List.length_append, put1_length, put4_length, Nat.reduceAdd] at h
    obtain ⟨⟨⟨kind, block⟩, gen⟩, fade⟩ := h
    exact ⟨fun _ => ⟨kind.byteAt, block.field4, gen.byteAt⟩, nofun, nofun, fade.byteAt⟩
  | atBlock n =>
    simp only [trigger, carries_append, List.length_append, put1_length, put4_length, Nat.reduceAdd] at h
    obtain ⟨⟨⟨kind, block⟩, gen⟩, fade⟩ := h
    refine ⟨nofun, fun m same => ?_, nofun, fade.byteAt⟩
    cases same
    exact ⟨kind.byteAt, block.block, gen.byteAt⟩
  | onCompare k =>
    simp only [trigger, carries_append, List.length_append, put1_length, put4_length, Nat.reduceAdd] at h
    obtain ⟨⟨⟨kind, block⟩, gen⟩, fade⟩ := h
    refine ⟨nofun, nofun, fun m same => ?_, fade.byteAt⟩
    cases same
    exact ⟨kind.byteAt, block.field4, gen.byteAt.trans (Nat.mod_eq_of_lt (by omega))⟩

/-- Table 39, offsets 26 to 32, with no swap pending. -/
theorem statusSwap_none (h : Carries b 26 (statusSwap none)) :
    byteAt b 26 = 255 ∧ ∀ i, 27 ≤ i → i ≤ 32 → byteAt b i = 0 := by
  refine ⟨congrArg BitVec.toNat (h 0 (by decide)), fun i low high => ?_⟩
  have zeros : ∀ j < 7, 1 ≤ j → (statusSwap none).getD j 0 = 0 := by decide
  have here := h (i - 26) (by rw [statusSwap_length]; omega)
  rw [Nat.add_sub_cancel' (by omega), zeros _ (by omega) (by omega)] at here
  rw [byteAt, here]
  rfl

end

/-- Table 39: the layout of the bytes of a STATUS body. -/
theorem statusLayout_of_parts {s : State} {b : List Byte} (length : b.length = 237) (h : StatusParts s b) :
    StatusLayout s b := by
  obtain ⟨node, memory, count, interval, latency, owed⟩ := statusNodeAndMemory_says h.nodeAndMemory
  obtain ⟨state, blocks, counters⟩ := statusLink_says h.link
  obtain ⟨overflow, guardB, active, fade, locked, pending, small⟩ := statusFlags s.records.overflow s.out.guardB
    (s.store.active == 1) s.store.fade s.store.pointerLocked s.store.swap.isSome
  have flags := Carries.byte h.bits
  refine ⟨length, node.trans ?_, memory.trans ?_, ⟨count, interval.trans ?_, latency, owed⟩, ?_, blocks, counters, ?_,
    fun none => ?_, fun w some => ?_, h.pointer.field2, ⟨h.cutCount.half, h.cutRun.half⟩, ⟨h.unitA.byteAt, h.unitB.byteAt⟩,
    fun c below => channelBytes (h.channels.piece (statusChannel_length s) below)⟩
  · rfl
  · rfl
  · rfl
  · exact state
  · rw [byteAt, flags]
    exact ⟨overflow, guardB, active, fade, locked, pending, small⟩
  · have swap := h.swap
    rw [none] at swap
    exact statusSwap_none swap
  · have swap := h.swap
    rw [some] at swap
    obtain ⟨next, atBlock, onCompare, code⟩ := statusSwap_says swap
    exact ⟨next, atBlock, onCompare, fun cut => by rw [code, cut]; rfl, fun x exponent => by rw [code, exponent]; rfl⟩

/-- Table 39: the generators and the guard groups in a STATUS body. -/
theorem unitsReported_of_parts {s : State} {b : List Byte} (h : StatusParts s b) : UnitsReported s b :=
  ⟨fun _ below legal => generatorBytes (h.gens.piece (fun _ => statusGenerator_length _) below) legal,
    fun _ below legal => groupBytes (h.groups.piece (fun _ => statusGroup_length _) below) legal⟩

/-! ### STATUS-READ -/

/-- R164, R166: a STATUS-READ with a free notice place. -/
theorem State.statusRead_of_room {s : State} {r : Record} (room : s.records.notices.length < 8) (length : r.body.length = 1) :
    s.statusRead r =
      let t : State := { s with records := { s.records with
        live := s.records.live.drop 1, overflow := false, notices := s.records.notices ++ [.status r.tag s.statusBody] } }
      if (r.body.getD 0 0).getLsbD 0 then t.clearCounters else t := by
  rw [State.statusRead, if_neg (Nat.not_le.2 room), beq_iff_eq.2 length, State.liveList_true]
  have queued : s.records.queueNotice (.status r.tag s.statusBody) =
      { s.records with notices := s.records.notices ++ [.status r.tag s.statusBody] } := if_pos room
  simp only [State.queueNotice, queued]
  rfl

/-- Settles O50: a STATUS-READ queues the body it forms from the state as it stands; the body has the bytes of Table 39. -/
theorem statusReadAnswers : Obligations.StatusReadAnswers := by
  refine ⟨fun s r atHead full => ?waits, fun s r atHead room length => ?answers, fun s => ?layout⟩
  case waits => exact (running_atLiveHead State.statusRead atHead).trans (congrArg _ (if_pos full))
  case answers =>
    have executes : exec .statusRead s = .next (s.statusRead r) := running_atLiveHead State.statusRead atHead
    rw [State.statusRead_of_room room length] at executes
    cases clears : (r.body.getD 0 0).getLsbD 0 with
    | false =>
      rw [clears] at executes
      exact ⟨_, executes, rfl, fun _ => rfl, nofun⟩
    | true =>
      rw [clears] at executes
      exact ⟨_, executes, rfl, nofun, fun _ => ⟨rfl, rfl, rfl, rfl⟩⟩
  case layout =>
    have parts : StatusParts s s.statusBody := statusParts_of_carries (carries_self _)
    exact ⟨statusLayout_of_parts (statusBody_length s) parts, unitsReported_of_parts parts⟩

end Sys2Proof.Machine
end

section
/-! PROOF. The class queues, the notice queue and the cell of a notice (R163, R168 to R171, Tables 37, 38 and 40). -/

namespace Sys2Proof.Machine

open Sys2Proof.Safety

/-! ### The cell of a notice -/

/-- R171: the bytes of a notice before they are laid out in a cell. -/
def Notice.bytes (n : Notice) (p : Fin 4) : List Byte :=
  (0x02#8 :: (put1 p.val ++ put2 n.tag.toNat ++ put1 n.kind)) ++ n.body

theorem Notice.cell_eq (n : Notice) (p : Fin 4) : n.cell p = cellOf (n.bytes p) := rfl

theorem Notice.bytes_length (n : Notice) (p : Fin 4) : (n.bytes p).length = 5 + n.body.length := by
  simp only [Notice.bytes, List.length_append]
  rfl

/-- R171: what fits before the check word of a cell stands in it. -/
theorem carries_cellOf {l : List Byte} {k : Nat} (fits : k ≤ 254) : Carries (cellOf l) 0 (l.take k) := by
  intro j below
  rw [List.length_take] at below
  rw [Nat.zero_add, cellOf_getD _ _ (by omega), List.getD_eq_getElem?_getD, List.getD_eq_getElem?_getD,
    List.getElem?_take_of_lt (by omega)]

/-- R171: behind the bytes of a notice its cell is padded with zeros. -/
theorem paddedFrom_cellOf (l : List Byte) : PaddedFrom (cellOf l) l.length := by
  intro i beyond below
  rw [cellOf_getD _ _ below, List.getD_eq_default _ _ beyond]

section
variable (n : Notice) (p : Fin 4)

/-- R171: the five bytes before the body of a notice. -/
theorem Notice.cell_head : byteAt (n.cell p) 0 = 2 ∧ byteAt (n.cell p) 1 = p.val ∧ field2 (n.cell p) 2 = n.tag.toNat ∧
    byteAt (n.cell p) 4 = n.kind := by
  have head : Carries (n.cell p) 0 ([0x02#8] ++ put1 p.val ++ put2 n.tag.toNat ++ put1 n.kind) :=
    carries_cellOf (l := n.bytes p) (k := 5) (by decide)
  simp only [carries_append, List.length_append, put1_length, put2_length, List.length_singleton, Nat.reduceAdd] at head
  obtain ⟨⟨⟨code, position⟩, tag⟩, kind⟩ := head
  refine ⟨congrArg BitVec.toNat (Carries.byte code), position.byteAt.trans (Nat.mod_eq_of_lt (by omega)), tag.half,
    kind.byteAt.trans (Nat.mod_eq_of_lt ?_)⟩
  cases n <;> simp [Notice.kind]

variable {n}

/-- R171: the body of a notice that fits before the check word. -/
theorem Notice.cell_body {k : Nat} (length : n.body.length = k) (fits : 5 + k ≤ 254) :
    Carries (n.cell p) 5 n.body ∧ PaddedFrom (n.cell p) (5 + k) := by
  have all := carries_cellOf (l := n.bytes p) fits
  rw [List.take_of_length_le (by rw [n.bytes_length, length])] at all
  refine ⟨(carries_append.1 all).2, ?_⟩
  rw [← length, ← n.bytes_length p]
  exact paddedFrom_cellOf _

end

theorem RecordOutcome.code_lt (o : RecordOutcome) : o.code < 256 := by cases o <;> decide

theorem bit_one (x : Bool) : bit x 1 % 256 = x.toNat := by cases x <;> rfl

/-- R171, Tables 37 and 38: the cell of a notice says what the notice says. -/
theorem Notice.cell_says (n : Notice) (p : Fin 4) : CellSays (n.cell p) n := by
  obtain ⟨_, _, tag, kind⟩ := n.cell_head p
  cases n with
  | completion t op o c b =>
    obtain ⟨body, padded⟩ := Notice.cell_body p (n := .completion t op o c b) (k := 16) rfl (by decide)
    have body : Carries _ 5 ([op] ++ (put1 o.code ++ put2 c.written ++ put2 c.clamped ++ put2 c.rejected
      ++ put2 c.foreign ++ put2 c.first ++ put4 b.toNat)) := body
    simp only [carries_append, List.length_append, put1_length, put2_length, List.length_singleton, Nat.reduceAdd] at body
    obtain ⟨op, ⟨⟨⟨⟨⟨outcome, written⟩, clamped⟩, rejected⟩, foreign⟩, first⟩, block⟩ := body
    exact ⟨tag, kind, Carries.byte op, outcome.byteAt.trans (Nat.mod_eq_of_lt o.code_lt), written.field2, clamped.field2,
      rejected.field2, foreign.field2, first.field2, block.block, padded⟩
  | guard t k x tripped b peak count =>
    obtain ⟨body, padded⟩ := Notice.cell_body p (n := .guard t k x tripped b peak count) (k := 11) rfl (by decide)
    simp only [Notice.body, carries_append, List.length_append, put1_length, put3_length, put4_length, Nat.reduceAdd] at body
    obtain ⟨⟨⟨⟨⟨group, source⟩, trip⟩, block⟩, peak⟩, count⟩ := body
    refine ⟨tag, kind, group.byteAt.trans (Nat.mod_eq_of_lt (by omega)), source.byteAt.trans ?_,
      trip.byteAt.trans (bit_one tripped), block.block, peak.field3, count.byteAt, padded⟩
    cases x <;> rfl
  | variation k isEnd b counter d =>
    obtain ⟨body, padded⟩ := Notice.cell_body p (n := .variation k isEnd b counter d) (k := 9) rfl (by decide)
    simp only [Notice.body, carries_append, List.length_append, put1_length, put2_length, put4_length, Nat.reduceAdd] at body
    obtain ⟨⟨⟨⟨gen, ends⟩, block⟩, counter⟩, dir⟩ := body
    refine ⟨tag, kind, gen.byteAt.trans (Nat.mod_eq_of_lt (by omega)), ends.byteAt.trans (bit_one isEnd), block.block,
      counter.field2, dir.byteAt.trans ?_, padded⟩
    cases d <;> rfl
  | link renumber new former gap =>
    obtain ⟨body, padded⟩ := Notice.cell_body p (n := .link renumber new former gap) (k := 13) rfl (by decide)
    simp only [Notice.body, carries_append, List.length_append, put1_length, put4_length, Nat.reduceAdd] at body
    obtain ⟨⟨⟨event, new⟩, former⟩, gap⟩ := body
    exact ⟨tag, kind, event.byteAt.trans (bit_one renumber), new.block, former.block, gap.block, padded⟩
  | cut b done due =>
    obtain ⟨body, padded⟩ := Notice.cell_body p (n := .cut b done due) (k := 8) rfl (by decide)
    simp only [Notice.body, carries_append, List.length_append, put2_length, put4_length, Nat.reduceAdd] at body
    obtain ⟨⟨block, done⟩, due⟩ := body
    exact ⟨tag, kind, block.block, done.field2, due.field2, padded⟩
  | swap t b =>
    obtain ⟨body, padded⟩ := Notice.cell_body p (n := .swap t b) (k := 4) rfl (by decide)
    exact ⟨tag, kind, Carries.block body, padded⟩
  | status t body =>
    refine ⟨tag, kind, fun length => ?_⟩
    obtain ⟨carried, padded⟩ := Notice.cell_body p (n := .status t body) length (by decide)
    exact ⟨fun i below => carried i (by rw [Notice.body, length]; exact below), padded⟩
  | restarted t b =>
    obtain ⟨body, padded⟩ := Notice.cell_body p (n := .restarted t b) (k := 4) rfl (by decide)
    exact ⟨tag, kind, Carries.block body, padded⟩

/-! ### The queues -/

/-- R163, R168: a complete record joins the tail of its queue, or is refused. -/
theorem State.enqueue_eq (s : State) (r : Record) : s.enqueue r = s.withRecords
    (if r.op = .restart then { s.records with restarts := s.records.restarts ++ [r] }
     else if r.op.isTable = true then
       if s.records.table.length < 2 then { s.records with table := s.records.table ++ [r] }
       else s.records.complete s.noticeBlock r.tag r.op r.notify .busy {}
     else if s.records.live.length < 2 then { s.records with live := s.records.live ++ [r] }
     else s.records.complete s.noticeBlock r.tag r.op r.notify .busy {}) := by
  unfold State.enqueue
  repeat' split
  all_goals rfl

/-- Settles O17: a record and a notice join their queues by the room these have, and a notice is laid out by its tables. -/
theorem recordsAndNoticesJoinTheirQueues : Obligations.RecordsAndNoticesJoinTheirQueues := by
  refine ⟨State.enqueue_eq, fun q n => rfl, fun q b tag op notify o c => rfl, fun n p => ?cell, rfl⟩
  obtain ⟨code, position, _, _⟩ := n.cell_head p
  exact ⟨cellOf_length _, cellOf_check _, code, position, n.cell_says p⟩

end Sys2Proof.Machine
end

section
/-! PROOF. Ramps and the arithmetic of taps and outputs (R60 to R70, R78 to R82, chapter 4). -/

namespace Sys2Proof.Machine

open Sys2Proof.Safety

/-! ### A value between two ends -/

/-- R63, R64, R80: a floored step of `k` parts of `n` from one end to the other stays between them. -/
theorem between_of_step (a b : Int) {k n : Nat} (positive : 0 < n) (inside : k ≤ n) :
    min a b ≤ a + (b - a) * k / n ∧ a + (b - a) * k / n ≤ max a b := by
  have parts : (0 : Int) < n := by exact_mod_cast positive
  have some : (0 : Int) ≤ k := Int.natCast_nonneg k
  have most : (k : Int) ≤ n := by exact_mod_cast inside
  rcases le_total a b with up | down
  · have low : 0 ≤ (b - a) * k / n := Int.ediv_nonneg (mul_nonneg (by omega) some) parts.le
    have high : (b - a) * k / n ≤ b - a :=
      Int.ediv_le_of_le_mul parts (mul_le_mul_of_nonneg_left most (by omega))
    omega
  · have low : b - a ≤ (b - a) * k / n :=
      (Int.le_ediv_iff_mul_le parts).2 (mul_le_mul_of_nonpos_left most (by omega))
    have high : (b - a) * k / n ≤ 0 := by
      refine Int.ediv_le_of_le_mul parts ?_
      rw [zero_mul]
      exact mul_nonpos_of_nonpos_of_nonneg (by omega) some
    omega

/-- R80: a full step ends at the other end. -/
theorem full_step (a b : Int) {n : Nat} (positive : 0 < n) : a + (b - a) * n / n = b := by
  rw [Int.mul_ediv_cancel _ (by omega)]
  omega

/-! ### Ramps -/

/-- R82: a ramp that begins at the gain `c` has it as its current gain. -/
theorem Ramp.current_of_start (c g : Int) (n : Nat) : (⟨c, g, n, 0⟩ : Ramp).current = c := by
  simp [Ramp.current, Ramp.value]

/-- Settles O25: the value of a ramp is a floored step between its ends, and a retarget begins at the current gain. -/
theorem rampsStepAndRetarget : Obligations.RampsStepAndRetarget := by
  refine ⟨fun m q positive inside => ?between, fun m => ⟨rfl, rfl, rfl⟩, fun m g rise fall => ⟨fun up => ?up,
    fun down => ?down, fun same => ?same, ?current⟩⟩
  case between =>
    obtain ⟨low, high⟩ := between_of_step m.g0 m.g1 positive inside
    exact ⟨rfl, low, high, by simp [Ramp.value], full_step m.g0 m.g1 positive⟩
  case up => simp only [Ramp.retarget, if_pos up]
  case down => simp only [Ramp.retarget, if_neg down.le.not_gt, if_pos down]
  case same => simp only [Ramp.retarget, same, lt_irrefl, if_false]
  case current =>
    unfold Ramp.retarget
    dsimp only
    split
    · exact Ramp.current_of_start _ _ _
    · split
      · exact Ramp.current_of_start _ _ _
      · simp [Ramp.current, Ramp.value]

/-! ### Samples, gains and products -/

/-- R63: an interpolated value lies between its neighbours. -/
theorem interpolate_between (x0 x1 : Int) {f : Nat} (fraction : f ≤ 255) :
    min x0 x1 ≤ interpolate x0 x1 f ∧ interpolate x0 x1 f ≤ max x0 x1 :=
  between_of_step x0 x1 (k := f) (n := 256) (by decide) (by omega)

/-- R64, R69: an interpolated gain lies between its ends. -/
theorem gainAt_between (gb ge : Int) {j : Nat} (inside : j < 32) :
    min gb ge ≤ gainAt gb ge j ∧ gainAt gb ge j ≤ max gb ge := by
  simpa [gainAt] using between_of_step gb ge (k := j + 1) (n := 32) (by decide) inside

/-- R64, R69: the last gain of a block is the block-end gain. -/
theorem gainAt_last (gb ge : Int) : gainAt gb ge 31 = ge := full_step gb ge (n := 32) (by decide)

/-- R65: the size of a product of a sample and a gain. -/
theorem product_bound {v g : Int} (v0 : -8388608 ≤ v) (v1 : v ≤ 8388607) (g0 : -32768 ≤ g) (g1 : g ≤ 32767) :
    -274877906944 ≤ v * g ∧ v * g ≤ 274877906944 := by
  have size : |v * g| ≤ 8388608 * 32768 := by
    rw [abs_mul]
    exact mul_le_mul (abs_le.2 ⟨v0, by omega⟩) (abs_le.2 ⟨g0, by omega⟩) (abs_nonneg _) (by decide)
  exact abs_le.1 size

/-- R13: a sample lies in the sample range. -/
theorem flooredSample_range (floor : Block) (t : Time) (w : Word) :
    -8388608 ≤ flooredSample floor t w ∧ flooredSample floor t w ≤ 8388607 := by
  unfold flooredSample
  split
  · decide
  · have low := (sampleOfWord w).le_toInt
    have high := (sampleOfWord w).toInt_lt
    omega

theorem tapSample_range (b floor : Block) (d : Nat) (words : List Word) (k : Nat) :
    -8388608 ≤ tapSample b floor d words k ∧ tapSample b floor d words k ≤ 8388607 := flooredSample_range _ _ _

/-- R65: the size of a tap's product. -/
theorem tapProduct_bound (b floor : Block) (d : Nat) {f : Nat} {gb ge : Int} (words : List Word) {j : Nat} (fraction : f ≤ 255)
    (b0 : -32768 ≤ gb) (b1 : gb ≤ 32767) (e0 : -32768 ≤ ge) (e1 : ge ≤ 32767) (inside : j < 32) :
    -274877906944 ≤ tapProduct b floor d f (gb, ge) words j ∧ tapProduct b floor d f (gb, ge) words j ≤ 274877906944 := by
  obtain ⟨x0, x1⟩ := tapSample_range b floor d words j
  obtain ⟨y0, y1⟩ := tapSample_range b floor d words (j + 1)
  obtain ⟨vLow, vHigh⟩ := interpolate_between (tapSample b floor d words (j + 1)) (tapSample b floor d words j) fraction
  obtain ⟨gLow, gHigh⟩ := gainAt_between gb ge inside
  exact product_bound (g := gainAt gb ge j) (by omega) (by omega) (by omega) (by omega)

/-- R62: the words kept of a tap's read begin at the oldest time's place in its burst. -/
theorem keptFrom_eq (b : Block) (d : Nat) : keptFrom b d = (oldestTime b d).toNat % 8 := by
  unfold keptFrom positionOf
  omega

/-! ### Output values -/

/-- R71: a saturated value is a sample. -/
theorem sampleOf_saturate (z : Int) : (sampleOf (saturate z)).toInt = saturate z := by
  have low : -8388608 ≤ saturate z := le_max_left _ _
  have high : saturate z ≤ 8388607 := max_le (by decide) (min_le_left _ _)
  rw [sampleOf, BitVec.toInt_ofInt]
  exact Int.bmod_eq_of_le (by omega) (by omega)

/-- R53, R71: an output value of a pass. -/
theorem Pass.values_toInt (p : Pass) (acc : List (List Acc)) {c j : Nat} (channel : c < 16) (sample : j < 32) :
    (((p.values acc).getD c []).getD j 0).toInt = saturate (p.value acc c j) := by
  rw [Pass.values, getD_tab 16 _ _ _ channel, getD_tab 32 _ _ _ sample, sampleOf_saturate]

/-- R68: the sample of a LINE-MONITOR channel comes from the first read of the channel. -/
theorem Pass.monitorSample_of_first {p : Pass} {c : Fin 16} {before rest : List MonitorRead} {m : MonitorRead}
    (monitors : p.monitors = before ++ m :: rest) (others : ∀ x ∈ before, x.channel ≠ c) (own : m.channel = c) (j : Nat) :
    p.monitorSample c.val j =
      if 32 ≤ m.words.length then flooredSample p.snapshot.floor (timeOf p.number j) (m.words.getD j 0) else 0 := by
  have found : p.monitors.find? (fun m => m.channel.val == c.val) = some m := by
    rw [monitors, List.find?_append, List.find?_eq_none.2 (fun x mem => by simpa [Fin.val_inj] using others x mem)]
    simp [own]
  rw [Pass.monitorSample, found]

/-! ### Inserted values -/

/-- R73, R116: the inserted value of a channel that is not silent. -/
theorem Output.insertedValue_of_heard {o : Output} {c : Nat} (heard : o.silence.getD c false = false) (j : Nat) :
    o.insertedValue c j = match o.actionFor (o.copy.getD c ⟨none, none⟩).group with
      | none => o.bufferValue c j
      | some a => a.apply (o.bufferValue c j) := by
  rw [Output.insertedValue, heard]
  rfl

/-- R73, Table 16: an attenuation is a floored division, and stays a sample. -/
theorem GuardAction.attenuate_toInt (z : Sample) (n : Nat) :
    ((GuardAction.attenuate n).apply z).toInt = z.toInt / 2 ^ n := by
  have low : -8388608 ≤ z.toInt := z.le_toInt
  have high : z.toInt < 8388608 := z.toInt_lt
  have power : (0 : Int) < 2 ^ n := by positivity
  have lower : -8388608 ≤ z.toInt / 2 ^ n := by
    refine (Int.le_ediv_iff_mul_le power).2 ?_
    have one : (1 : Int) ≤ 2 ^ n := power
    omega
  have upper : z.toInt / 2 ^ n ≤ 8388607 := by
    refine Int.ediv_le_of_le_mul power ?_
    have one : (1 : Int) ≤ 2 ^ n := power
    omega
  have cast : ((2 ^ n : Nat) : Int) = 2 ^ n := by norm_cast
  simp only [GuardAction.apply, sampleOf, cast, BitVec.toInt_ofInt]
  exact Int.bmod_eq_of_le (by omega) (by omega)

/-- Settles O24: the delay, the interpolations, the products, the output values and the inserted values by their formulas,
each between the bounds that its parts give it. -/
theorem arithmeticStaysInRange : Obligations.ArithmeticStaysInRange := by
  refine ⟨fun e c => ?delay, ⟨⟨fun x0 x1 f fraction => ⟨rfl, interpolate_between x0 x1 fraction⟩, fun gb ge j inside => ?gain,
      fun v g => product_bound, fun p acc c j channel sample unmonitored => ?value⟩,
    ⟨fun floor t w => ?floored, fun b floor d k words => ?tapSample,
      fun b floor d f gb ge words j => ⟨rfl, tapProduct_bound b floor d words⟩,
      fun p acc c line j before rest m sample monitored monitors others own => ?monitor⟩,
    fun o c j => ⟨fun silent => ?silent, fun heard => ⟨fun alone => ?alone, fun k grouped => ?grouped⟩⟩,
    fun z => ⟨rfl, fun n _ _ => GuardAction.attenuate_toInt z n⟩⟩⟩
  case delay =>
    have clamped : effectiveDelay e c = max 16384 (min 33562623 (256 * e.delay + e.fraction.toNat + e.depth.toNat * c / 16)) := rfl
    exact ⟨clamped, by omega, by omega, by omega⟩
  case gain => exact ⟨rfl, (gainAt_between gb ge inside).1, (gainAt_between gb ge inside).2, gainAt_last gb ge⟩
  case value =>
    rw [Pass.values_toInt p acc channel sample]
    simp only [Pass.value, Pass.sum, unmonitored]
    rfl
  case floored =>
    unfold flooredSample timeEarlier
    simp only [decide_eq_true_eq]
    rfl
  case tapSample =>
    simp only [tapSample, keptFrom_eq]
    rfl
  case monitor =>
    rw [Pass.values_toInt p acc c.isLt sample]
    simp only [Pass.value, Pass.sum, monitored, Pass.monitorSample_of_first monitors others own]
    rfl
  case silent => rw [Output.insertedValue, if_pos silent]
  case alone =>
    rw [Output.insertedValue_of_heard heard, alone]
    rfl
  case grouped =>
    rw [Output.insertedValue_of_heard heard, grouped]
    simp only [Output.actionFor]
    by_cases verdict : o.insert.verdicts.getD k.val false = true
    · rw [if_pos verdict, if_pos verdict]
      rfl
    · by_cases tripped : (o.group k.val).bTripped = true
      · rw [if_neg verdict, if_neg verdict, if_pos tripped, if_pos tripped]
        rfl
      · rw [if_neg verdict, if_neg verdict, if_neg tripped, if_neg tripped]
        rfl

end Sys2Proof.Machine
end

section
/-! PROOF. The bursts that a burst request hands over (R44 to R48, R132). -/

namespace Sys2Proof.Machine

open Sys2Proof.Safety

/-! ### The first of a list that may hand a burst over -/

theorem handFirst_none {α : Type} {may : α → Bool} {upd : α → α} {l : List α} (h : ∀ x ∈ l, may x = false) :
    handFirst may upd l = none := by
  induction l with
  | nil => rfl
  | cons x l ih =>
    obtain ⟨here, later⟩ := List.forall_mem_cons.1 h
    rw [handFirst, here, ih later]
    rfl

theorem handFirst_some {α : Type} {may : α → Bool} {upd : α → α} {before rest : List α} {a : α}
    (h : ∀ x ∈ before, may x = false) (here : may a = true) :
    handFirst may upd (before ++ a :: rest) = some (a, before ++ upd a :: rest) := by
  induction before with
  | nil => rw [List.nil_append, handFirst, if_pos here]; rfl
  | cons x before ih =>
    obtain ⟨first, later⟩ := List.forall_mem_cons.1 h
    rw [List.cons_append, handFirst, first, ih later]
    rfl

/-! ### A burst request -/

/-- R132: a burst that is ready joins the tail of the queue, and the controller goes on. -/
theorem burstRequest_of_next {s : State} {q : BurstRequest} {after : TapEngine} (released : s.resetPin = false)
    (accepts : s.mem.accepts = true) (next : s.tap.nextBurst s.store = some (q, after)) :
    ∃ t, exec .burstRequest s = .next t ∧ Joins s t q ∧ t.tap = after ∧ t = { s with tap := t.tap, mem := t.mem } := by
  have executes : exec .burstRequest s =
      .next ({ s with tap := after, mem := { s.mem with queue := s.mem.queue ++ [q] } } : State).advanceMem := by
    refine (State.running_of_released released State.requestBurst).trans ?_
    rw [State.requestBurst, if_pos accepts, next]
    rfl
  exact ⟨_, executes, goesOn_of_advanceMem rfl rfl, rfl, rfl⟩

/-- R45: no ending pass hands a burst over where none has one left. -/
theorem TapEngine.endingBurst_none {t : TapEngine} (h : ∀ e ∈ t.ending, e.writesLeft = false) : t.endingBurst = none := by
  rw [TapEngine.endingBurst, handFirst_none h]

/-- R44: the write burst of the current pass. -/
theorem TapEngine.nextBurst_writing {t : TapEngine} {p : Pass} (store : Store) (h : ∀ e ∈ t.ending, e.writesLeft = false)
    (pass : t.pass = some p) (state : t.state = .writing) (left : p.write.handed < 256) : t.nextBurst store =
      some (p.write.burst p.serial, { t with pass := some { p with write := p.write.hand } }) := by
  simp only [TapEngine.nextBurst, TapEngine.endingBurst_none h, pass, state, if_pos left]

/-- R46 to R48: the read burst of the current pass. -/
theorem TapEngine.nextBurst_tapping {t : TapEngine} {p : Pass} (store : Store) (h : ∀ e ∈ t.ending, e.writesLeft = false)
    (pass : t.pass = some p) (state : t.state = .tapping) : t.nextBurst store = t.tapBurst p store := by
  simp only [TapEngine.nextBurst, TapEngine.endingBurst_none h, pass, state]

/-- R45: the oldest ending pass with write bursts left hands one over first. -/
theorem TapEngine.nextBurst_ending {t : TapEngine} {older younger : List EndingPass} {e : EndingPass} {w : WriteStage}
    (store : Store) (ending : t.ending = older ++ e :: younger) (spent : ∀ x ∈ older, x.writesLeft = false)
    (write : e.write = some w) (left : w.handed < 256) : t.nextBurst store =
      some (w.burst e.serial, { t with ending := older ++ { e with write := some w.hand } :: younger }) := by
  have may : e.writesLeft = true := by
    rw [EndingPass.writesLeft, write]
    exact decide_eq_true left
  have hands : t.endingBurst =
      some (w.burst e.serial, { t with ending := older ++ { e with write := some w.hand } :: younger }) := by
    rw [TapEngine.endingBurst, ending, handFirst_some spent may]
    simp only [write, Option.map_some]
  rw [TapEngine.nextBurst, hands]

/-- R44: without a pass that writes or taps, no burst is ready. -/
theorem TapEngine.nextBurst_none {t : TapEngine} (store : Store) (h : ∀ e ∈ t.ending, e.writesLeft = false)
    (resting : t.pass = none ∨ t.state = .idle ∨ t.state = .finishing) : t.nextBurst store = none := by
  rw [TapEngine.nextBurst, TapEngine.endingBurst_none h]
  rcases resting with pass | idle | finishing
  · rw [pass]
  · rw [idle]
    cases t.pass <;> rfl
  · rw [finishing]
    cases t.pass <;> rfl

/-- R4, R44: the burst that a write stage hands over. -/
theorem WriteStage.burst_isWriteBurst {w : WriteStage} (left : w.handed < 256) (serial : Nat) :
    IsWriteBurst (w.burst serial) w serial := by
  refine ⟨rfl, Nat.mod_eq_of_lt (by omega), ?_, rfl, rfl, rfl⟩
  simp only [WriteStage.burst, linePosition, lineBlockPosition]
  omega

/-- Settles O18: the write bursts come oldest pass first, and nothing changes where none is ready or none is accepted. -/
theorem burstRequestHandsOverAWrite : Obligations.BurstRequestHandsOverAWrite := by
  refine ⟨⟨fun s p released accepts spent pass state left => ?current,
    fun s older younger e w released accepts ending spent write left => ?ending, fun w line j => rfl⟩,
    fun s refused => ?refused, fun s spent resting => ?resting⟩
  case current =>
    obtain ⟨t, executes, joins, tap, rest⟩ := burstRequest_of_next released accepts
      (TapEngine.nextBurst_writing s.store spent pass state left)
    exact ⟨t, _, executes, joins, WriteStage.burst_isWriteBurst left _, tap, rest⟩
  case ending =>
    obtain ⟨t, executes, joins, tap, rest⟩ := burstRequest_of_next released accepts
      (TapEngine.nextBurst_ending s.store ending spent write left)
    exact ⟨t, _, executes, joins, WriteStage.burst_isWriteBurst left _, tap, rest⟩
  case refused =>
    refine State.running_of_unchanged (if_neg fun accepts => ?_)
    obtain ⟨state, room⟩ := s.mem.accepts_iff.1 accepts
    rcases refused with ⟨ready, draining, entering⟩ | full
    · rcases state with is | is | is
      · exact ready is
      · exact draining is
      · exact entering is
    · omega
  case resting =>
    refine State.running_of_unchanged ?_
    rw [State.requestBurst, TapEngine.nextBurst_none s.store spent resting, ite_self]

/-! ### The next tap -/

/-- R46: the first ACTIVE entry of a part of a bank. -/
theorem firstActive_some {b : Bank} {i n : Nat} {e : TapEntry} (active : b.getD i none = some e)
    (vacant : ∀ j < i, b.getD j none = none) : firstActive b n = some (n + i, e) := by
  induction i generalizing b n with
  | zero =>
    cases b with
    | nil => simp at active
    | cons x b =>
      have here : x = some e := active
      rw [here, firstActive]
      rfl
  | succ i ih =>
    cases b with
    | nil => simp at active
    | cons x b =>
      have here : x = none := vacant 0 (Nat.succ_pos i)
      rw [here, firstActive, ih (n := n + 1) active fun j below => vacant (j + 1) (Nat.succ_lt_succ below),
        Nat.add_assoc, Nat.add_comm 1 i]

theorem firstActive_none {b : Bank} {n : Nat} (vacant : ∀ j, b.getD j none = none) : firstActive b n = none := by
  induction b generalizing n with
  | nil => rfl
  | cons x b ih =>
    have here : x = none := vacant 0
    rw [here, firstActive]
    exact ih fun j => vacant (j + 1)

theorem getD_drop (b : Bank) (k j : Nat) : (b.drop k).getD j none = b.getD (k + j) none := by
  rw [List.getD_eq_getElem?_getD, List.getD_eq_getElem?_getD, List.getElem?_drop]

/-- R46: the next tap in the words of Safety. -/
theorem nextTap_of_isNextTap {s : State} {p : Pass} {k : BankNo} {i : Nat} {e : TapEntry} (next : IsNextTap s p k i e) :
    nextTap s.store p.snapshot s.tap.cursor = some (k, i, e) := by
  obtain ⟨active, ⟨rfl, low, vacant⟩ | ⟨playing, fading, rfl, spent, vacant⟩⟩ := next
  · have found := firstActive_some (b := (s.store.bank s.tap.cursor.bank).drop s.tap.cursor.index)
      (i := i - s.tap.cursor.index) (n := s.tap.cursor.index) (e := e)
      (by rw [getD_drop, Nat.add_sub_cancel' low]; exact active)
      (fun j below => by rw [getD_drop]; exact vacant _ (Nat.le_add_right _ _) (by omega))
    rw [Nat.add_sub_cancel' low] at found
    rw [nextTap, found]
  · have none := firstActive_none (b := (s.store.bank s.tap.cursor.bank).drop s.tap.cursor.index) (n := s.tap.cursor.index)
      (fun j => by rw [getD_drop]; exact spent _ (Nat.le_add_right _ _))
    have found := firstActive_some (n := 0) active vacant
    rw [nextTap, none]
    dsimp only
    rw [if_pos ⟨playing, fading⟩, found, Nat.zero_add]
    rfl

/-! ### Reads -/

section
variable {t : TapEngine} {p : Pass} (store : Store)

/-- R47: the LINE-MONITOR reads come first. -/
theorem TapEngine.tapBurst_monitor {done rest : List MonitorRead} {m : MonitorRead} (monitors : p.monitors = done ++ m :: rest)
    (spent : ∀ x ∈ done, 4 ≤ x.handed) (left : m.handed < 4) : t.tapBurst p store =
      some (m.burst p, { t with pass := some { p with monitors := done ++ { m with handed := m.handed + 1 } :: rest } }) := by
  rw [TapEngine.tapBurst, monitors, handFirst_some (fun x mem => decide_eq_false (Nat.not_lt.2 (spent x mem)))
    (decide_eq_true left)]

variable (monitored : ∀ x ∈ p.monitors, 4 ≤ x.handed)
include monitored

/-- R48: then the tap under way. -/
theorem TapEngine.tapBurst_read {done rest : List TapRead} {r : TapRead} (reads : p.reads = done ++ r :: rest)
    (spent : ∀ x ∈ done, 5 ≤ x.handed) (left : r.handed < 5) : t.tapBurst p store =
      some (r.burst p, { t with pass := some { p with reads := done ++ { r with handed := r.handed + 1 } :: rest } }) := by
  rw [TapEngine.tapBurst, handFirst_none (fun x mem => decide_eq_false (Nat.not_lt.2 (monitored x mem))), reads,
    handFirst_some (fun x mem => decide_eq_false (Nat.not_lt.2 (spent x mem))) (decide_eq_true left)]

/-- R46: then the next tap. -/
theorem TapEngine.tapBurst_next (spent : ∀ x ∈ p.reads, 5 ≤ x.handed) {k : BankNo} {i : Nat} {e : TapEntry}
    (next : nextTap store p.snapshot t.cursor = some (k, i, e)) : t.tapBurst p store =
      some ((tapReadOf p.snapshot k i e).burst p,
        { t with pass := some { p with reads := p.reads ++ [{ tapReadOf p.snapshot k i e with handed := 1 }] }
                 cursor := cursorAfter p.snapshot k i }) := by
  rw [TapEngine.tapBurst, handFirst_none (fun x mem => decide_eq_false (Nat.not_lt.2 (monitored x mem))),
    handFirst_none (fun x mem => decide_eq_false (Nat.not_lt.2 (spent x mem))), next]

end

/-- R48: the burst of a tap's read. -/
theorem TapRead.burst_isTapBurst (r : TapRead) (p : Pass) : IsTapBurst (r.burst p) p r :=
  ⟨rfl, rfl, rfl, rfl, rfl, rfl⟩

/-- Settles O19: the reads come in the order of the pass, from the monitor reads to the next tap of the cursor. -/
theorem burstRequestHandsOverARead : Obligations.BurstRequestHandsOverARead := by
  intro s p released accepts spent pass state
  have hands {q : BurstRequest} {after : TapEngine} (tapBurst : s.tap.tapBurst p s.store = some (q, after)) :=
    burstRequest_of_next released accepts ((TapEngine.nextBurst_tapping s.store spent pass state).trans tapBurst)
  refine ⟨fun done rest m monitors before left => ?monitor, fun monitored => ⟨fun done rest r reads before left => ?read,
    fun ended k i e next => ?next⟩⟩
  case monitor =>
    obtain ⟨t, executes, joins, tap, changes⟩ := hands (TapEngine.tapBurst_monitor s.store monitors before left)
    refine ⟨t, _, executes, joins, rfl, rfl, ?_, rfl, rfl, rfl, tap, changes⟩
    simp only [MonitorRead.burst, linePosition, lineBlockPosition]
    omega
  case read =>
    obtain ⟨t, executes, joins, tap, changes⟩ := hands (TapEngine.tapBurst_read s.store monitored reads before left)
    exact ⟨t, _, executes, joins, TapRead.burst_isTapBurst r p, tap, changes⟩
  case next =>
    obtain ⟨t, executes, joins, tap, changes⟩ := hands
      (TapEngine.tapBurst_next s.store monitored ended (nextTap_of_isNextTap next))
    exact ⟨t, _, _, executes, joins, TapRead.burst_isTapBurst _ p, rfl, rfl, rfl, rfl, rfl, rfl, Nat.div_add_mod _ _,
      Nat.mod_lt _ (by decide), tap, changes⟩

end Sys2Proof.Machine
end

section
/-! PROOF. The end of a burst's service (R44, R47, R49, R50, R132 to R135, R139). -/

namespace Sys2Proof.Machine

open Sys2Proof.Safety

/-! ### The end of a service -/

/-- R132, R133: the controller as the end of the service of burst `q` leaves it. -/
def MemController.afterBurst (m : MemController) (q : BurstRequest) : MemController := { m with
  queue := m.queue.drop 1, service := .none, periods := 0
  bankTable := m.bankTable.set (bankOf q.position.val) (asFin 4096 (rowOf q.line.val q.position.val)) }

/-- R132 to R135, R139: a served burst leaves the queue with its row open, and the controller goes on. -/
theorem burstServiceEnd_of_serving {s : State} {q : BurstRequest} (serving : Serving s q) :
    ∃ t, exec .burstServiceEnd s = .next t ∧ BurstEnds s t q ∧ t.tap = { (s.access q).tap with ending := t.tap.ending } ∧
      t = { s.access q with tap := t.tap, mem := t.mem } := by
  obtain ⟨released, service, head⟩ := serving
  obtain ⟨rest, queue⟩ := List.head?_eq_some_iff.1 head
  have served : { s.mem with queue := rest, service := .none, periods := 0 }.openFor q = s.mem.afterBurst q := by
    rw [MemController.afterBurst, queue]
    rfl
  have executes : exec .burstServiceEnd s =
      .next (((s.access q).withMem (s.mem.afterBurst q)).reapEnding).advanceMem := by
    refine (State.running_of_released released State.endBurst).trans ?_
    rw [State.endBurst, service, queue, ← served]
  have kept := s.access_ending q
  generalize s.access q = u at executes kept
  have ending : ((u.withMem (s.mem.afterBurst q)).reapEnding).tap.ending =
      u.tap.ending.filter (stillEnding (s.mem.queue.drop 1)) := State.reapEnding_ending _
  rw [kept] at ending
  exact ⟨_, executes, ⟨goesOn_of_advanceMem rfl rfl, ending⟩, rfl, rfl⟩

/-- What the change of the device and of the tap engine leaves. -/
theorem State.withDram_withTap (s : State) (m : List Host.Cell) (t : TapEngine) :
    (s.withDram m).withTap t = { s with dram := m, tap := t } := rfl

/-- R134: a write burst stores its values and is counted. -/
theorem State.access_write {s : State} {q : BurstRequest} {values : List Sample} (kind : q.kind = .write values) :
    s.access q = { s with dram := writeBurst s.dram q.line q.position values, tap := s.tap.writeServed q.serial } := by
  simp only [State.access, kind, State.withDram_withTap]

/-- R134: a read burst hands its words back. -/
theorem State.access_read {s : State} {q : BurstRequest} (kind : q.kind = .read) :
    s.access q = { s with tap := s.tap.readReturned q (readBurst s.powerCycle s.dram q.line q.position) } := by
  simp only [State.access, kind]
  rfl

/-! ### The words of a write burst -/

/-- R3, Table 3: the words of a line are one for each position. -/
theorem wordOf_inj {line : Fin 64} {a b : Nat} (ha : a < 131072) (hb : b < 131072) (same : wordOf line a = wordOf line b) :
    a = b := by
  have words : (a / 512 % 4 * 4096 + (64 * line.val + a / 2048)) * 512 + a % 512 =
    (b / 512 % 4 * 4096 + (64 * line.val + b / 2048)) * 512 + b % 512 := same
  have column : a % 512 = b % 512 := by omega
  rw [column] at words
  have bankRow := Nat.eq_of_mul_eq_mul_right (by decide) (Nat.add_right_cancel words)
  have row : a / 2048 = b / 2048 := by omega
  omega

/-- R4: the eight words of a burst differ. -/
theorem burstWord_inj {line : Fin 64} {position : Fin 131072} {i j : Nat} (hi : i < 8) (hj : j < 8)
    (same : burstWord line position i = burstWord line position j) : i = j := by
  have positions := wordOf_inj (linePosition _).isLt (linePosition _).isLt same
  simp only [linePosition] at positions
  omega

/-- R1, R134: words stored one after another at words that differ read as they were stored. -/
theorem dramWord_storeWords (pc : Nat) (word : Nat → Nat) (value : Nat → Word) {n : Nat} {is : List Nat}
    (apart : ∀ i ∈ is, ∀ j ∈ is, word i = word j → i = j) {m : List Host.Cell} (mem : n ∈ is) :
    dramWord pc (is.foldl (fun m i => storeWord m (word i) (value i)) m) (word n) = value n := by
  induction is using List.reverseRecOn with
  | nil => cases mem
  | append_singleton is i ih =>
    rw [List.foldl_append, List.foldl_cons, List.foldl_nil, dramWord_storeWord]
    by_cases last : word n = word i
    · rw [if_pos last, apart n mem i (by simp) last]
    · rw [if_neg last]
      refine ih (fun a ha b hb => apart a (by simp [ha]) b (by simp [hb])) ?_
      rcases List.mem_append.1 mem with before | here
      · exact before
      · exact absurd (congrArg word (List.mem_singleton.1 here)) last

/-- R1, R134: the words of a write burst after it. -/
theorem dramWord_writeBurst (pc : Nat) (m : List Host.Cell) (line : Fin 64) (position : Fin 131072) (values : List Sample)
    {i : Nat} (hi : i < 8) :
    dramWord pc (writeBurst m line position values) (burstWord line position i) = (values.getD i 0).signExtend 32 :=
  dramWord_storeWords pc (burstWord line position) (fun i => (values.getD i 0).signExtend 32)
    (fun _ ha _ hb => burstWord_inj (List.mem_range.1 ha) (List.mem_range.1 hb)) (List.mem_range.2 hi)

/-- Log 7: a stored word changes its four bytes alone. -/
theorem read_storeWord {m : List Host.Cell} {w a : Nat} (v : Word) (other : a / 4 ≠ w) :
    Memory.read (storeWord m w v) a = Memory.read m a := by
  unfold storeWord
  simp only [Memory.read_write]
  repeat rw [if_neg (by omega)]

/-- Log 7: a write burst changes the bytes of its words alone. -/
theorem read_writeBurst {m : List Host.Cell} {line : Fin 64} {position : Fin 131072} (values : List Sample) {a : Nat}
    (other : ∀ i < 8, a / 4 ≠ burstWord line position i) :
    Memory.read (writeBurst m line position values) a = Memory.read m a := by
  unfold writeBurst
  have other : ∀ i ∈ List.range 8, a / 4 ≠ burstWord line position i := fun i mem => other i (List.mem_range.1 mem)
  generalize List.range 8 = is at other
  induction is generalizing m with
  | nil => rfl
  | cons i is ih =>
    rw [List.foldl_cons, ih fun j mem => other j (List.mem_cons_of_mem _ mem), read_storeWord _ (other i (List.mem_cons_self ..))]

/-- Settles O20: a served write burst stores its values in its eight words, which differ, and in no other byte. -/
theorem writeBurstStoresItsWords : Obligations.WriteBurstStoresItsWords := by
  intro s q values serving kind
  obtain ⟨t, executes, ends, _, rest⟩ := burstServiceEnd_of_serving serving
  rw [State.access_write kind] at rest
  have words := fun i (below : i < 8) => dramWord_writeBurst s.powerCycle s.dram q.line q.position values below
  have bytes := fun a => read_writeBurst (m := s.dram) (line := q.line) (position := q.position) values (a := a)
  generalize writeBurst s.dram q.line q.position values = m at rest words bytes
  have dram : t.dram = m := congrArg State.dram rest
  rw [← dram] at rest words bytes
  exact ⟨t, executes, ends, words, bytes, rest⟩

end Sys2Proof.Machine
end

section
/-! PROOF. What the bursts that come back make of the pass (R44, R46, R47, R49, R50, R65). -/

namespace Sys2Proof.Machine

open Sys2Proof.Safety

/-! ### The end of the tap stage -/

/-- R50: the tap stage is complete with every tap done and every LINE-MONITOR read returned. -/
theorem Pass.tapStageDone_iff (p : Pass) : p.tapStageDone = true ↔
    p.done = p.snapshot.due ∧ ∀ m ∈ p.monitors, 32 ≤ m.words.length := by
  simp [Pass.tapStageDone]

/-- R50: a pass in TAPPING goes on to FINISHING where its tap stage is complete. -/
theorem TapEngine.endTapStage_tapping {t : TapEngine} {p : Pass} (state : t.state = .tapping) (pass : t.pass = some p) :
    t.endTapStage = { t with state := if p.done = p.snapshot.due ∧ ∀ m ∈ p.monitors, 32 ≤ m.words.length then .finishing
      else .tapping } := by
  unfold TapEngine.endTapStage
  simp only [state, pass, ← Pass.tapStageDone_iff]
  by_cases done : p.tapStageDone = true
  · rw [if_pos done, if_pos done]
  · rw [if_neg done, if_neg done, ← state, ← pass]

/-! ### The write bursts -/

/-- R44: a write burst of the current pass in WRITING that is not the last. -/
theorem TapEngine.writeServed_earlier {t : TapEngine} {p : Pass} {serial : Nat} (state : t.state = .writing)
    (pass : t.pass = some p) (own : p.serial = serial) (earlier : p.served ≠ 255) :
    t.writeServed serial = { t with pass := some { p with served := p.served + 1 } } := by
  simp only [TapEngine.writeServed, state, pass, if_pos own, if_neg (show ¬p.served + 1 = 256 by omega)]

/-- R44, R46, R50: the last write burst of the current pass. -/
theorem TapEngine.writeServed_last {t : TapEngine} {p : Pass} {serial : Nat} (state : t.state = .writing)
    (pass : t.pass = some p) (own : p.serial = serial) (last : p.served = 255) : t.writeServed serial = { t with
      pass := some { p with served := p.served + 1 }, acc := clearedAccumulators, cursor := ⟨p.snapshot.active, 0⟩
      state := if p.done = p.snapshot.due ∧ ∀ m ∈ p.monitors, 32 ≤ m.words.length then .finishing else .tapping } := by
  simp only [TapEngine.writeServed, state, pass, if_pos own, if_pos (show p.served + 1 = 256 by omega)]
  exact TapEngine.endTapStage_tapping (p := { p with served := p.served + 1 }) rfl rfl

/-- Settles O21: the served count of the pass rises with each of its write bursts, and the last begins the tap stage. -/
theorem lastWriteBurstBeginsTapping : Obligations.LastWriteBurstBeginsTapping := by
  intro s q values p serving kind state pass own
  obtain ⟨t, executes, ends, tap, _⟩ := burstServiceEnd_of_serving serving
  have written : (s.access q).tap = s.tap.writeServed q.serial := congrArg State.tap (State.access_write kind)
  rw [written] at tap
  by_cases last : p.served = 255
  · rw [TapEngine.writeServed_last state pass own last] at tap
    refine ⟨t, executes, ends, ?_, fun _ => ⟨?_, ?_, ?_⟩, fun earlier => absurd last earlier⟩
    all_goals rw [tap]
    rfl
  · rw [TapEngine.writeServed_earlier state pass own last] at tap
    refine ⟨t, executes, ends, ?_, fun h => absurd h last, fun _ => ⟨?_, ?_, ?_⟩⟩
    · rw [tap]
    · rw [tap]
      exact state
    · rw [tap]
    · rw [tap]

/-! ### The reads -/

/-- R134: a read hands back eight words. -/
theorem readBurst_length (pc : Nat) (m : List Host.Cell) (line : Fin 64) (position : Fin 131072) :
    (readBurst pc m line position).length = 8 := by simp [readBurst, tab]

/-- R65: the accumulators with a tap's products added. -/
theorem accumulate_getD {acc : List (List Acc)} (full : acc.length = 16) (channel : Fin 16) (product : Nat → Int)
    {c j : Nat} (inside : j < 32) : ((accumulate acc channel product).getD c []).getD j 0 =
      if c = channel.val then (acc.getD c []).getD j 0 + BitVec.ofInt 56 (product j) else (acc.getD c []).getD j 0 := by
  rw [accumulate, getD_set_of_lt (by rw [full]; exact channel.isLt)]
  by_cases own : c = channel.val
  · rw [if_pos own, if_pos own, getD_tab 32 _ _ _ inside, own]
  · rw [if_neg own, if_neg own]

section
variable {t : TapEngine} {p : Pass} {q : BurstRequest} (words : List Word) (state : t.state = .tapping)
  (pass : t.pass = some p)
include state pass

/-- R47: the words of a LINE-MONITOR read. -/
theorem TapEngine.readReturned_monitor {c : Fin 16} (own : p.serial = q.serial) (part : q.part = .monitor c) :
    t.readReturned q words = (t.monitorReturned p c words).endTapStage := by
  simp only [TapEngine.readReturned, state, pass, if_pos own, part]

/-- R49: the words of a tap's read. -/
theorem TapEngine.readReturned_tap {k : BankNo} {i : Nat} (own : p.serial = q.serial) (part : q.part = .tap k i) :
    t.readReturned q words = (t.tapReturned p k i words).endTapStage := by
  simp only [TapEngine.readReturned, state, pass, if_pos own, part]

end

/-- R51, R57: the words of a read of another pass, or of one that does not tap, are discarded. -/
theorem TapEngine.readReturned_discarded {t : TapEngine} {q : BurstRequest} (words : List Word)
    (other : t.state ≠ .tapping ∨ ∀ p, t.pass = some p → p.serial ≠ q.serial) : t.readReturned q words = t := by
  unfold TapEngine.readReturned
  split
  next p state pass =>
    rcases other with resting | foreign
    · exact absurd state resting
    · exact if_neg (foreign p pass)
  · rfl

section
variable {t : TapEngine} {p : Pass} {r : TapRead} {rest : List TapRead} (words : List Word) (reads : p.reads = r :: rest)
include reads

/-- R49: the words join the first read of their tap. -/
theorem TapEngine.handFirst_reads :
    handFirst (fun x : TapRead => x.bank == r.bank && x.index == r.index) (fun x => { x with words := x.words ++ words })
      p.reads = some (r, { r with words := r.words ++ words } :: rest) := by
  rw [reads, handFirst, if_pos (by simp)]

/-- R49: a tap's fifth burst contributes its products. -/
theorem TapEngine.tapReturned_fifth (complete : 40 ≤ (r.words ++ words).length) :
    t.tapReturned p r.bank r.index words = { t with
      acc := accumulate t.acc r.channel
        (tapProduct p.number p.snapshot.floor r.delay r.fraction (p.snapshot.gains r.bank r.index) (r.words ++ words))
      pass := some { p with reads := rest, done := p.done + 1 } } := by
  have removed : p.reads.eraseP (fun x => x.bank == r.bank && x.index == r.index) = rest := by
    rw [reads]
    simp
  simp only [TapEngine.tapReturned, TapEngine.handFirst_reads words reads, if_pos complete, removed]

/-- R49: an earlier burst leaves its words with the read. -/
theorem TapEngine.tapReturned_earlier (incomplete : ¬40 ≤ (r.words ++ words).length) :
    t.tapReturned p r.bank r.index words =
      { t with pass := some { p with reads := { r with words := r.words ++ words } :: rest } } := by
  simp only [TapEngine.tapReturned, TapEngine.handFirst_reads words reads, if_neg incomplete]

end

section
variable {t : TapEngine} {p : Pass} {q : BurstRequest} (words : List Word) (state : t.state = .tapping)
  (pass : t.pass = some p) (own : p.serial = q.serial)
include state pass own

/-- R47, R50: a LINE-MONITOR read that comes back. -/
theorem TapEngine.readReturned_monitors {c : Fin 16} (part : q.part = .monitor c) :
    let monitors := p.monitors.map fun m => if m.channel = c then { m with words := m.words ++ words } else m
    t.readReturned q words = { t with
      pass := some { p with monitors := monitors }
      state := if p.done = p.snapshot.due ∧ ∀ m ∈ monitors, 32 ≤ m.words.length then .finishing else .tapping } := by
  intro monitors
  rw [TapEngine.readReturned_monitor _ state pass own part]
  refine TapEngine.endTapStage_tapping (p := { p with monitors := monitors }) ?_ rfl
  exact state

variable {r : TapRead} {rest : List TapRead} (reads : p.reads = r :: rest) (part : q.part = .tap r.bank r.index)
include reads part

/-- R49, R50: a tap's fifth burst that comes back. -/
theorem TapEngine.readReturned_fifth (complete : 40 ≤ (r.words ++ words).length) : t.readReturned q words = { t with
    acc := accumulate t.acc r.channel
      (tapProduct p.number p.snapshot.floor r.delay r.fraction (p.snapshot.gains r.bank r.index) (r.words ++ words))
    pass := some { p with reads := rest, done := p.done + 1 }
    state := if p.done + 1 = p.snapshot.due ∧ ∀ m ∈ p.monitors, 32 ≤ m.words.length then .finishing else .tapping } := by
  rw [TapEngine.readReturned_tap _ state pass own part, TapEngine.tapReturned_fifth _ reads complete]
  refine TapEngine.endTapStage_tapping (p := { p with reads := rest, done := p.done + 1 }) ?_ rfl
  exact state

/-- R49, R50: an earlier burst of a tap that comes back. -/
theorem TapEngine.readReturned_earlier (incomplete : ¬40 ≤ (r.words ++ words).length) : t.readReturned q words = { t with
    pass := some { p with reads := { r with words := r.words ++ words } :: rest }
    state := if p.done = p.snapshot.due ∧ ∀ m ∈ p.monitors, 32 ≤ m.words.length then .finishing else .tapping } := by
  rw [TapEngine.readReturned_tap _ state pass own part, TapEngine.tapReturned_earlier _ reads incomplete]
  refine TapEngine.endTapStage_tapping (p := { p with reads := { r with words := r.words ++ words } :: rest }) ?_ rfl
  exact state

end

/-- R134: the end of the service of a read burst. -/
theorem burstServiceEnd_of_read {s : State} {q : BurstRequest} (serving : Serving s q) (kind : q.kind = .read) :
    ∃ t, exec .burstServiceEnd s = .next t ∧ BurstEnds s t q ∧
      t.tap = { s.tap.readReturned q (readBurst s.powerCycle s.dram q.line q.position) with ending := t.tap.ending } ∧
      t = { s with tap := t.tap, mem := t.mem } := by
  obtain ⟨t, executes, ends, tap, rest⟩ := burstServiceEnd_of_serving serving
  rw [State.access_read kind] at tap rest
  exact ⟨t, executes, ends, tap, rest⟩

/-- Settles O22: a read that comes back reaches its part of the pass, and the tap stage may end with it. -/
theorem fifthBurstMakesATapContribute : Obligations.FifthBurstMakesATapContribute := by
  refine ⟨fun s q p r rest serving kind part state pass own reads full words => ?fifth,
    fun s q p r rest serving kind part state pass own reads words => ?earlier,
    fun s q p c serving kind part state pass own => ?monitor, fun s q serving kind other => ?discarded⟩
  all_goals obtain ⟨t, executes, ends, tap, changes⟩ := burstServiceEnd_of_read serving kind
  case fifth =>
    have complete : 40 ≤ (r.words ++ readBurst s.powerCycle s.dram q.line q.position).length := by
      rw [List.length_append, readBurst_length, words]
    rw [TapEngine.readReturned_fifth _ state pass own reads part complete] at tap
    refine ⟨t, executes, ?_, ?_, fun c j inside => ?_, ?_, ends, changes⟩
    · rw [tap]
    · rw [tap]
    · rw [tap]
      exact accumulate_getD full _ _ inside
    · rw [tap]
  case earlier =>
    have incomplete : ¬40 ≤ (r.words ++ readBurst s.powerCycle s.dram q.line q.position).length := by
      rw [List.length_append, readBurst_length]
      omega
    rw [TapEngine.readReturned_earlier _ state pass own reads part incomplete] at tap
    refine ⟨t, executes, ?_, ends, ?_, changes⟩
    · rw [tap]
    · rw [tap]
  case monitor =>
    rw [TapEngine.readReturned_monitors _ state pass own part] at tap
    refine ⟨t, executes, ?_, ?_, ?_, ends, changes⟩
    · rw [tap]
    · rw [tap]
    · rw [tap]
  case discarded =>
    rw [TapEngine.readReturned_discarded _ other] at tap
    exact ⟨t, executes, tap, ends, changes⟩

end Sys2Proof.Machine
end

section
/-! PROOF. FINISHING: the output block, the detectors and the end of a pass (R49, R53, R54, R71, R72, R110 to R113). -/

namespace Sys2Proof.Machine

open Sys2Proof.Safety

/-! ### The group peak -/

theorem le_foldl_max {l : List Nat} {x : Nat} (m : Nat) (mem : x ∈ l) : x ≤ l.foldl max m := by
  induction l generalizing m with
  | nil => cases mem
  | cons y l ih =>
    rcases List.mem_cons.1 mem with rfl | later
    · have start (n : Nat) : n ≤ l.foldl max n := by
        clear ih mem
        induction l generalizing n with
        | nil => exact le_rfl
        | cons z l ih => exact (le_max_left _ _).trans (ih (max n z))
      exact (le_max_right _ _).trans (start (max m x))
    · exact ih (max m y) later

theorem foldl_max_mem (l : List Nat) (m : Nat) : l.foldl max m = m ∨ l.foldl max m ∈ l := by
  induction l generalizing m with
  | nil => exact .inl rfl
  | cons y l ih =>
    rcases ih (max m y) with start | later
    · rcases max_choice m y with old | new
      · exact .inl (start.trans old)
      · exact .inr (List.mem_cons.2 (.inl (start.trans new)))
    · exact .inr (List.mem_cons_of_mem _ later)

/-- R110: the magnitudes of the values of a group's channels. -/
def groupMagnitudes (groups : List (Option (Fin 4))) (values : List (List Sample)) (k : Fin 4) : List Nat :=
  (List.range 16).flatMap fun c => if groups.getD c none = some k then (values.getD c []).map magnitude else []

theorem mem_groupMagnitudes {groups : List (Option (Fin 4))} {values : List (List Sample)} {k : Fin 4} {n : Nat} :
    n ∈ groupMagnitudes groups values k ↔
      ∃ c < 16, groups.getD c none = some k ∧ ∃ x ∈ values.getD c [], x.toInt.natAbs = n := by
  simp only [groupMagnitudes, List.mem_flatMap, List.mem_range]
  refine exists_congr fun c => and_congr_right fun _ => ?_
  by_cases member : groups.getD c none = some k
  · rw [if_pos member]
    simp only [member, true_and, List.mem_map]
    rfl
  · rw [if_neg member]
    simp only [member, false_and, List.not_mem_nil]

/-- R110: the group peak is the largest of the magnitudes of the group's channels. -/
theorem groupPeak_eq (groups : List (Option (Fin 4))) (values : List (List Sample)) (k : Fin 4) :
    groupPeak groups values k = (groupMagnitudes groups values k).foldl max 0 := by
  rw [groupPeak, groupMagnitudes, List.foldl_flatMap]
  congr 1
  funext m c
  split
  · rw [List.foldl_map]
  · rfl

/-! ### The detector -/

/-- R110 to R112: the detector of an enabled source A. -/
theorem GuardGroup.detect_of_enabled {g : GuardGroup} (enabled : g.aEnable = true) (peak : Nat) : g.detect peak = { g with
    count := g.nextCount peak
    aTripped := (g.aMode == .latch && g.aTripped) || decide (g.limit ≤ g.nextCount peak) } := by
  rw [GuardGroup.detect, if_pos enabled]
  cases g.aMode <;> simp

/-! ### What FINISHING leaves -/

theorem getD_map_fin4 {α : Type} (f : Fin 4 → α) (d : α) (k : Fin 4) : ([0, 1, 2, 3].map f).getD k.val d = f k := by
  fin_cases k <;> rfl

section
variable (s : State) (p : Pass)

/-- R53, R71, R72, R110: the output that FINISHING forms. -/
theorem State.finishPass_output (write : Option WriteStage) (swapped : Bool) : (s.finishPass p write swapped).out = { s.out with
    filling := ⟨p.values s.tap.acc, [0, 1, 2, 3].map fun k : Fin 4 =>
      (s.out.group k.val).verdict (groupPeak p.snapshot.groups (p.values s.tap.acc) k)⟩
    groups := [0, 1, 2, 3].map fun k : Fin 4 =>
      (s.out.group k.val).detect (groupPeak p.snapshot.groups (p.values s.tap.acc) k)
    saturation := p.countSaturation s.tap.acc 512 s.out.saturation } := by
  rw [State.finishPass_out]
  rfl

/-- R53: FINISHING fills the filling buffer alone. -/
theorem State.finishPass_buffers (write : Option WriteStage) (swapped : Bool) :
    (s.finishPass p write swapped).out.filling.values = p.values s.tap.acc ∧
    (s.finishPass p write swapped).out.insert = s.out.insert := by
  rw [State.finishPass_output]
  exact ⟨rfl, rfl⟩

/-- R110 to R112: each group after FINISHING. -/
theorem State.finishPass_group (write : Option WriteStage) (swapped : Bool) (k : Fin 4) :
    (s.finishPass p write swapped).out.group k.val =
      (s.out.group k.val).detect (groupPeak p.snapshot.groups (p.values s.tap.acc) k) := by
  rw [State.finishPass_output]
  exact getD_map_fin4 (fun k : Fin 4 =>
    (s.out.group k.val).detect (groupPeak p.snapshot.groups (p.values s.tap.acc) k)) GuardGroup.reset k

/-- R110 to R112: each verdict after FINISHING. -/
theorem State.finishPass_verdict (write : Option WriteStage) (swapped : Bool) (k : Fin 4) :
    (s.finishPass p write swapped).out.filling.verdicts.getD k.val false =
      ((s.out.group k.val).aEnable && ((s.finishPass p write swapped).out.group k.val).aTripped) := by
  rw [State.finishPass_group, State.finishPass_output]
  exact getD_map_fin4 (fun k : Fin 4 =>
    (s.out.group k.val).verdict (groupPeak p.snapshot.groups (p.values s.tap.acc) k)) false k

/-- R72: the saturation counters after FINISHING. -/
theorem State.finishPass_saturation (write : Option WriteStage) (swapped : Bool) {c : Nat} (channel : c < 16) :
    (s.finishPass p write swapped).out.saturation.getD c 0 = countUp (s.out.saturation.getD c 0)
      ((List.range 32).filter fun j => saturates (p.value s.tap.acc c j)).length := by
  rw [State.finishPass_output]
  refine (getD_tab 16 (fun c => countUp (s.out.saturation.getD c 0) (p.saturated s.tap.acc 512 c)) 0 c channel).trans ?_
  have all : (List.range 32).filter (fun j => decide (32 * c + j < 512) && saturates (p.value s.tap.acc c j)) =
      (List.range 32).filter fun j => saturates (p.value s.tap.acc c j) := by
    refine List.filter_congr fun j mem => ?_
    have below := List.mem_range.1 mem
    rw [decide_eq_true (by omega), Bool.true_and]
  exact congrArg (fun l : List Nat => countUp (s.out.saturation.getD c 0) l.length) all

/-- R37, R54: the report of a pass to the table store, a swap not having taken effect since its snapshot. -/
theorem State.finishPass_report (write : Option WriteStage) : (s.finishPass p write false).store = { s.store with
    endReady := s.store.endReady || (s.store.fade && p.snapshot.fade && p.snapshot.outgoingIdle) } := by
  have store : (s.finishPass p write false).store = ((s.formOutput p).reportFade p false).store := rfl
  rw [store, State.reportFade]
  by_cases reports : s.store.fade = true ∧ p.snapshot.fade = true ∧ p.snapshot.outgoingIdle = true
  · obtain ⟨fade, playing, idle⟩ := reports
    rw [if_pos (by simp [fade, playing, idle])]
    simp [fade, playing, idle]
  · have none : (s.store.fade && p.snapshot.fade && p.snapshot.outgoingIdle) = false := by
      rw [Bool.and_assoc]
      simpa [Bool.and_eq_true] using reports
    rw [if_neg (by simpa using reports), none, Bool.or_false]
    simp

/-- R111, R112, R119: the notices of FINISHING. -/
theorem State.finishPass_notices (write : Option WriteStage) (swapped : Bool) : (s.finishPass p write swapped).records =
    (detectorNotices s.out p s.tap.acc).foldl Records.queueNotice s.records := by
  have records : (s.finishPass p write swapped).records = (s.formOutput p).records := by simp [State.finishPass]
  rw [records]
  rfl

/-- R50, R54: the tap engine after an uncut pass. -/
theorem State.finishUncut_tap (swapped : Bool) : (s.finishUncut p swapped).tap = { s.tap with
    state := .idle, pass := none, acc := clearedAccumulators, cutRun := 0
    ending := s.tap.ending ++ [⟨p.number, p.serial, none⟩] } := by
  simp [State.finishUncut, State.finishPass_tap]

/-- R54: what an uncut pass leaves but for its tap engine. -/
theorem State.finishUncut_rest (swapped : Bool) : s.finishUncut p swapped = { s with
    tap := (s.finishUncut p swapped).tap, out := (s.finishPass p none swapped).out
    store := (s.finishPass p none swapped).store, records := (s.finishPass p none swapped).records } := by
  simp [State.eq_iff, State.finishUncut]

end

/-- Settles O23: FINISHING forms the output block, and the pass gives its end where no burst of it waits. -/
theorem finishingFormsTheOutputBlock : Obligations.FinishingFormsTheOutputBlock := by
  refine ⟨⟨fun s p released state pass => ?finishes, fun s other => ?other⟩, fun g peak => ⟨fun off => ?off, fun on => ?on⟩,
    fun groups values k => ⟨fun c channel member x mem => ?bound, ?attained⟩⟩
  case finishes =>
    have executes : exec .finishingComplete s = .next ((s.finishUncut p false).reapEnding).advanceMem := by
      refine (State.running_of_released released State.completeFinishing).trans ?_
      simp only [State.completeFinishing, state, pass]
    rw [State.finishUncut_rest, State.finishUncut_tap] at executes
    obtain ⟨values, insert⟩ := s.finishPass_buffers p none false
    exact ⟨_, executes, rfl, rfl, rfl, rfl, rfl, values, insert, fun k => ⟨s.finishPass_group p none false k,
      s.finishPass_verdict p none false k⟩, fun c channel => s.finishPass_saturation p none false channel,
      s.finishPass_report p none, s.finishPass_notices p none false, State.reapEnding_ending _,
      goesOn_of_advanceMem rfl rfl, rfl⟩
  case other =>
    refine State.running_of_unchanged ?_
    unfold State.completeFinishing
    split
    next p state _ => exact absurd state other
    · rfl
  case off => rw [GuardGroup.detect, if_neg (by simp [off])]
  case on =>
    rw [GuardGroup.detect_of_enabled on]
    refine ⟨rfl, fun latch => ?_, fun block => ?_, rfl⟩
    · simp [latch]
    · simp [block]
  case bound =>
    rw [groupPeak_eq]
    exact le_foldl_max 0 (mem_groupMagnitudes.2 ⟨c, channel, member, x, mem, rfl⟩)
  case attained =>
    rw [groupPeak_eq]
    exact (foldl_max_mem _ 0).imp id mem_groupMagnitudes.1

end Sys2Proof.Machine
end

section
/-! PROOF. What every arrival does first, and how a good frame of index 0 is taken as position 0 (R114, R122, R143, R149 to
R154). -/

namespace Sys2Proof.Machine

open Sys2Proof.Safety

/-! ### The samples of an arrival -/

/-- R114, R115: the trip state of source B after a sample, in the words of Safety. -/
theorem GuardGroup.sampledTrip_eq (x : GuardGroup) (g : Bool) : x.sampledTrip g =
    if x.bEnable then (if x.bMode = .block then g else x.bTripped || g) else x.bTripped := by
  unfold GuardGroup.sampledTrip
  cases x.bMode <;> simp

/-- R114, R115, R119: what an arrival queues first. -/
theorem State.atArrival_notices (s : State) (g : Bool) :
    (s.atArrival g).records = (lineNotices s g).foldl Records.queueNotice s.records := by
  have notices : ([0, 1, 2, 3].flatMap fun k : Fin 4 => (s.out.group k.val).sampleNotice k g s.noticeBlock) =
      lineNotices s g := by
    refine congrArg (List.flatMap · [0, 1, 2, 3]) (funext fun k => ?_)
    simp only [GuardGroup.sampleNotice, GuardGroup.sampledTrip_eq]
  rw [← notices]
  rfl

/-- R114, R122: the samples change the output stage and the record engine alone. -/
theorem State.atArrival_eq (s : State) (g : Bool) :
    s.atArrival g = { s with out := (s.atArrival g).out, records := (s.atArrival g).records } := rfl

theorem State.atArrival_groups (s : State) (g : Bool) (k : Fin 4) :
    (s.atArrival g).out.group k.val = { s.out.group k.val with bTripped := (s.out.group k.val).sampledTrip g } := by
  have groups : (s.atArrival g).out.groups =
    tab 4 fun k => { s.out.group k with bTripped := (s.out.group k).sampledTrip g } := rfl
  rw [Output.group, groups, getD_tab _ _ _ _ k.isLt]

theorem State.atArrival_silence (s : State) (g : Bool) {c : Nat} (channel : c < 16) : (s.atArrival g).out.silence.getD c false =
    (s.out.silenceNext.getD c none).getD (s.out.silence.getD c false) :=
  getD_tab 16 (fun c => (s.out.silenceNext.getD c none).getD (s.out.silence.getD c false)) false c channel

/-- R142: with the reset pin released an arrival is taken. -/
theorem exec_frameArrival {s : State} (released : s.resetPin = false) (f : Frame) (g : Bool) :
    exec (.frameArrival f g) s = .next ((s.atArrival g).takeArrival f) :=
  State.running_of_released released fun s => s.arrival f g

/-- R143: LOST turns to SEEKING and takes the frame there. -/
theorem State.takeArrival_of_not_locked {s : State} (unlocked : s.link.state ≠ .locked) (f : Frame) :
    s.takeArrival f = (s.withLink { s.link with state := .seeking }).seek f := by
  have kept (h : s.link.state = .seeking) : s.withLink { s.link with state := .seeking } = s := by rw [← h]; rfl
  unfold State.takeArrival
  split
  next seeking => rw [kept seeking]
  · rfl
  next locked => exact absurd locked unlocked

/-- Settles O4: outside LOCKED a frame that cannot relock leaves as it came. -/
theorem seekingForwardsFramesUnchanged : Obligations.SeekingForwardsFramesUnchanged := by
  intro f g s released unlocked other
  have seeks := State.takeArrival_of_not_locked (s := s.atArrival g) unlocked f
  rw [State.seek, if_neg other] at seeks
  have executes := exec_frameArrival released f g
  rw [seeks] at executes
  exact ⟨_, executes, rfl, rfl⟩

/-! ### The notice and position 0 -/

/-- R154: the oldest notice leaves the queue for an IDLE cell. -/
theorem State.placeNotice_of_idle (s : State) {f : Frame} (idle : f.controlRow.getD 0 0 = 0) : s.placeNotice f = { s with
    records := { s.records with notices := s.records.notices.drop 1 }
    link := { s.link with cellTx :=
      if s.records.notices = [] then s.link.cellTx else s.records.notices.head?.map fun n => n.cell s.position } } := by
  unfold State.placeNotice
  split
  next n rest notices =>
    rw [if_pos idle, notices]
    rfl
  next empty =>
    simp only [empty, List.drop_nil, if_true]
    rw [← empty]

/-- R154: a cell that is not IDLE takes no notice. -/
theorem State.placeNotice_of_busy (s : State) {f : Frame} (busy : f.controlRow.getD 0 0 ≠ 0) : s.placeNotice f = s := by
  unfold State.placeNotice
  split
  · exact if_neg busy
  · rfl

/-- The node after the notice was placed and the frame taken as position 0. -/
def State.takeFirst (s : State) (f : Frame) : State := (s.placeNotice f).takePosition (some f) false

/-- R10, R149 to R154: a good frame taken as position 0 of a block that stands empty. -/
theorem State.takeFirst_eq {s : State} {f : Frame} (first : s.link.expected = 0) (fresh : s.link.lostZero = false)
    (empty : s.link.filling = []) (unrecorded : s.out.recording = []) : s.takeFirst f = { s with
      link := { s.link with filling := [f.row], held := f.row, cellRx := some ⟨f.controlRow, false⟩, expected := 1
                            cellTx := (s.placeNotice f).link.cellTx }
      linkOut := some ((s.placeNotice f).forwarded f 0 false)
      out := { s.out with recording := [(s.placeNotice f).recordRow 0] }
      records := (s.placeNotice f).records } := by
  have link := s.placeNotice_link f
  have first' : (s.placeNotice f).link.expected = 0 := by simp [first]
  simp only [State.eq_iff]
  refine ⟨⟨?_, ?_, ?_, ?_, ?_, ?_, ?_, ?_⟩, ?_, ?_, ?_, ?_, ?_, ?_, ?_, ?_⟩
  case refine_4 => simp [State.takeFirst, State.takePosition, first]
  case refine_5 =>
    rw [State.takeFirst, State.takePosition_link_at_zero _ _ first', link]
    simp [fresh, empty]
  case refine_6 => simp [State.takeFirst, State.takePosition, first]
  case refine_12 => simp [State.takeFirst, State.takePosition, first, fresh, unrecorded]
  all_goals simp [State.takeFirst]

/-- R151, R154, Table 31: how a frame taken as position 0 leaves. -/
theorem State.takeFirst_leaves {s : State} (f : Frame) (distinct : ∀ c < 16, ∀ c' < 16, ∀ n,
    (s.out.copy.getD c ⟨none, none⟩).slot = some n → (s.out.copy.getD c' ⟨none, none⟩).slot = some n → c = c')
    (fresh : s.link.lostZero = false) : LeavesAs s.records.node false s.out (s.placeNotice f).link.cellTx 0 f
      ((s.placeNotice f).forwarded f 0 false) ((s.placeNotice f).recordRow 0) := by
  have leaves := State.forwarded_leaves (s.placeNotice f) f 0 false (by simpa using distinct)
  simpa [fresh, (s.placeNotice_records f).node] using leaves

/-- R141: a check written afresh holds. -/
theorem Frame.fresh_checkHolds (f : Frame) : f.fresh.checkHolds = true := by
  have body : f.fresh.body = f.body := by simp only [Frame.body, Frame.fresh, Frame.row, Frame.controlRow]
  rw [Frame.checkHolds, body]
  generalize sum : wordSum f.body = n
  simp only [Frame.fresh, sum, checkFor, BitVec.toNat_ofNat, beq_iff_eq]
  omega

/-- R151: a forwarded frame keeps its index, its number and, where the position is not damaged, its flags. -/
theorem State.forwarded_header (s : State) (f : Frame) (i : Nat) (bad : Bool) :
    (s.forwarded f i bad).index = f.index ∧ (s.forwarded f i bad).block = f.block ∧
    (s.forwarded f i bad).flags = (if bad then f.flags ||| 1 else f.flags) ∧
    (s.forwarded f i bad ≠ f → (s.forwarded f i bad).checkHolds = true) := by
  unfold State.forwarded
  dsimp only
  generalize (if bad then f.flags ||| 1 else f.flags) = flags
  split
  next same => exact ⟨rfl, rfl, (congrArg Frame.flags same).symm, fun other => absurd rfl other⟩
  · exact ⟨rfl, rfl, rfl, fun _ => Frame.fresh_checkHolds _⟩

end Sys2Proof.Machine
end

section
/-! PROOF. The output stage at an arrival and at a boundary, and the samples that every arrival takes (R56, R57, R114, R115,
R122). -/

namespace Sys2Proof.Machine

open Sys2Proof.Safety

/-! ### The output stage -/

/-- R110: FINISHING reads and writes no trip state of source B. -/
theorem State.finishPass_bTripped (s : State) (p : Pass) (write : Option WriteStage) (swapped : Bool) (k : Fin 4) :
    ((s.finishPass p write swapped).out.group k.val).bTripped = (s.out.group k.val).bTripped := by
  rw [State.finishPass_group]
  unfold GuardGroup.detect
  split <;> rfl

/-- R57, R76: an abandonment empties both buffers and may count saturation. -/
theorem State.abandonPass_output (s : State) : s.abandonPass.out = { s.out with
    filling := OutBuffer.zeros, insert := OutBuffer.zeros, saturation := s.abandonPass.out.saturation } := by
  have partly : s.partialSaturation.out = { s.out with saturation := s.partialSaturation.out.saturation } := by
    unfold State.partialSaturation
    split <;> rfl
  have abandoned : s.abandonPass.out =
    { s.partialSaturation.out with filling := OutBuffer.zeros, insert := OutBuffer.zeros } := rfl
  rw [abandoned, partly]

section
variable (s : State) (b n : Block) (x : Bool)

/-- R45, R51: the close of a pass changes the filling buffer, the groups and the saturation counters. -/
theorem State.closePass_output (swapped : Bool) : (s.closePass swapped).out = { s.out with
    filling := (s.closePass swapped).out.filling, groups := (s.closePass swapped).out.groups
    saturation := (s.closePass swapped).out.saturation } := by
  unfold State.closePass State.finishUncut
  split
  · rfl
  · split <;> simp [State.finishPass_output]

/-- R45, R51: the close of a pass reads and writes no trip state of source B. -/
theorem State.closePass_bTripped (swapped : Bool) (k : Fin 4) :
    ((s.closePass swapped).out.group k.val).bTripped = (s.out.group k.val).bTripped := by
  unfold State.closePass State.finishUncut
  split
  · rfl
  · split <;> simp [State.finishPass_bTripped]

/-- R145, R146: the output stage when the blocks have turned. -/
theorem State.boundaryTurned_output : (s.boundaryTurned b n x).out = { s.out with
    recorded := s.out.recording, recording := []
    filling := if x then OutBuffer.zeros else s.out.filling, insert := if x then OutBuffer.zeros else s.out.insert
    saturation := (s.boundaryTurned b n x).out.saturation } := by
  unfold State.boundaryTurned
  cases x with
  | false => rfl
  | true =>
    have renumbered : ((s.turnBlock n).renumber b n).out = (s.turnBlock n).abandonPass.out := rfl
    rw [if_pos rfl, renumbered, State.abandonPass_output]
    rfl

theorem State.boundarySwapped_output : (s.boundarySwapped b n x).1.out = (s.boundaryTurned b n x).out := by
  simp [State.boundarySwapped]

/-- R55, R122: the output stage of a boundary. -/
theorem State.boundary_output : (s.boundary b n x).out = { s.out with
    recorded := s.out.recording, recording := []
    insert := (s.boundaryClosed b n x).out.filling, filling := OutBuffer.zeros
    groups := (s.boundaryClosed b n x).out.groups, saturation := (s.boundaryClosed b n x).out.saturation
    copy := tab 16 fun c => ⟨(s.store.channel c).slot, (s.store.channel c).group⟩
    silence := tab 16 fun c => (s.out.silencePending.getD c none).getD (s.out.silence.getD c false)
    silencePending := List.replicate 16 none } := by
  obtain ⟨_, _, _, _, _, _, _, _, _, _, _, _, _, copy, _⟩ := s.boundaryReady_keeps b n x
  have ready : (s.boundaryReady b n x).out = { (s.boundaryClosed b n x).out with
      insert := (s.boundaryClosed b n x).out.filling, filling := OutBuffer.zeros
      copy := (s.boundaryReady b n x).out.copy
      silence := tab 16 fun c => ((s.boundaryClosed b n x).out.silencePending.getD c none).getD
        ((s.boundaryClosed b n x).out.silence.getD c false)
      silencePending := List.replicate 16 none } := by
    simp [State.boundaryReady, State.copyChannels, State.exchangeBuffers, Output.takeSilencePending]
  have closed := State.closePass_output (s.boundarySwapped b n x).1 (s.boundarySwapped b n x).2
  rw [State.boundarySwapped_output, State.boundaryTurned_output] at closed
  rw [State.boundary_out, ready, copy]
  have pending : (s.boundaryClosed b n x).out.silencePending = s.out.silencePending := by
    rw [State.boundaryClosed, closed]
  have silence : (s.boundaryClosed b n x).out.silence = s.out.silence := by
    rw [State.boundaryClosed, closed]
  rw [pending, silence]
  unfold State.boundaryClosed
  rw [closed]

/-- R122: the silence flags after a boundary. -/
theorem State.boundary_silence {c : Nat} (channel : c < 16) : (s.boundary b n x).out.silence.getD c false =
    (s.out.silencePending.getD c none).getD (s.out.silence.getD c false) := by
  rw [State.boundary_output]
  exact getD_tab 16 (fun c => (s.out.silencePending.getD c none).getD (s.out.silence.getD c false)) false c channel

/-- R114: a boundary leaves the trip states of source B. -/
theorem State.boundary_bTripped (k : Fin 4) :
    ((s.boundary b n x).out.group k.val).bTripped = (s.out.group k.val).bTripped := by
  have groups : (s.boundary b n x).out.group k.val = (s.boundaryClosed b n x).out.group k.val := by
    rw [State.boundary_output]
    rfl
  have turned : (s.boundaryTurned b n x).out.group k.val = s.out.group k.val := by
    rw [State.boundaryTurned_output]
    rfl
  rw [groups, State.boundaryClosed, State.closePass_bTripped, State.boundarySwapped_output, turned]

end

/-- R148: a loss of the link leaves the inputs of the output stage. -/
theorem State.loseLink_output (s : State) : s.loseLink.out = { s.out with
    recording := [], recorded := [], filling := OutBuffer.zeros, insert := OutBuffer.zeros
    saturation := s.loseLink.out.saturation } := by
  have lost (u : State) : u.abandonPass.advanceMem.out = { u.out with
      filling := OutBuffer.zeros, insert := OutBuffer.zeros, saturation := u.abandonPass.advanceMem.out.saturation } :=
    State.abandonPass_output u
  exact lost _

/-- R143: a relock leaves the inputs of the output stage. -/
theorem State.relock_output (s : State) (f : Frame) : (s.relock f).out = { s.out with
    recording := (s.relock f).out.recording, recorded := [], copy := (s.relock f).out.copy } := by
  unfold State.relock
  dsimp only
  rw [State.takePosition_out]
  simp [State.copyChannels]

end Sys2Proof.Machine

namespace Sys2Proof.Safety

open Machine

/-! ### What every arrival samples -/

/-- The GUARD-B sample, the trip states of source B and the FRAME silence changes of an output stage. -/
def Sampled (g : Bool) (trips : Fin 4 → Bool) (s : State) : Prop :=
  s.out.guardB = g ∧ s.out.silenceNext = List.replicate 16 none ∧ ∀ k : Fin 4, (s.out.group k.val).bTripped = trips k

theorem sampled_atArrival (s : State) (g : Bool) : Sampled g (fun k => (s.out.group k.val).sampledTrip g) (s.atArrival g) := by
  refine ⟨rfl, rfl, fun k => ?_⟩
  rw [State.atArrival_groups]

/-- R114, R122: what an arrival has sampled stands when it has been taken. -/
theorem Sampled.takeArrival {g : Bool} {trips : Fin 4 → Bool} {s : State} (h : Sampled g trips s) (f : Frame) :
    Sampled g trips (s.takeArrival f) := by
  apply State.takeArrival_phases h
  case link => exact fun _ _ h => h
  case linkOut => exact fun _ _ h => h
  case place => exact fun s f h => by simpa [Sampled] using h
  case boundary =>
    rintro _ _ _ _ s b n x ⟨guardB, next, trips⟩
    refine ⟨?_, ?_, fun k => (s.boundary_bTripped b n x k).trans (trips k)⟩
    · rw [State.boundary_output]
      exact guardB
    · rw [State.boundary_output]
      exact next
  case relock =>
    intro s f h
    unfold Sampled
    rw [State.relock_output]
    exact h
  case position =>
    intro s f bad h
    unfold Sampled
    rw [State.takePosition_out]
    exact h
  case lose =>
    intro s h
    unfold Sampled
    rw [State.loseLink_output]
    exact h

/-- R122: an arrival that raises no boundary leaves the silence flags as its sample made them. -/
theorem takeArrival_silence {s : State} {f : Frame} (released : s.resetPin = false) (inside : ¬AtBoundary s f) :
    (s.takeArrival f).out.silence = s.out.silence := by
  apply State.takeArrival_phases (P := fun u => u.out.silence = s.out.silence) rfl
  case link => exact fun _ _ h => h
  case linkOut => exact fun _ _ h => h
  case place => exact fun s f h => by simpa using h
  case boundary => exact fun locked first good index => absurd ⟨released, locked, first, good, index⟩ inside
  case relock =>
    intro s f h
    rw [State.relock_output]
    exact h
  case position =>
    intro s f bad h
    rw [State.takePosition_out]
    exact h
  case lose =>
    intro s h
    rw [State.loseLink_output]
    exact h

end Sys2Proof.Safety
end

section
/-! PROOF. An arrival that raises a boundary: what it leaves of the generators, the banks, the node state and the silence
flags (R32 to R38, R88, R89, R94 to R102, R114, R122). -/

namespace Sys2Proof.Machine

open Sys2Proof.Safety

/-! ### A boundary and its position 0 -/

/-- The node after the boundary that the arrival of `f` raises, before `f` is taken. -/
def State.afterBoundary (s : State) (f : Frame) (g : Bool) : State :=
  (s.beforeBoundary g).boundary s.link.block f.block (f.block != s.link.block + 1)

theorem State.beforeBoundary_records (s : State) (g : Bool) : SameButNotices s.records (s.beforeBoundary g).records :=
  s.atArrival_records g

/-- R142, R145, R146: a boundary is taken, and then its frame as position 0. -/
theorem exec_boundary {s : State} {f : Frame} (h : AtBoundary s f) (g : Bool) :
    exec (.frameArrival f g) s = .next ((s.afterBoundary f g).takeFirst f) := by
  obtain ⟨released, locked, first, good, index⟩ := h
  exact (State.running_of_released released fun s => s.arrival f g).trans
    (by rw [State.arrival_boundary g locked first good index]; rfl)

/-- R145: the link port when the blocks have turned. -/
theorem State.afterBoundary_link (s : State) (f : Frame) (g : Bool) : (s.afterBoundary f g).link = { s.link with
    gapTimer := .oneAndHalfPeriods, complete := s.link.filling, filling := [], block := f.block, badRun := 0
    lostZero := false } :=
  State.boundary_link _ _ _ _

/-- R145, R149: the frame of a boundary is taken as position 0 of an empty block. -/
theorem State.afterBoundary_takeFirst {s : State} {f : Frame} (h : AtBoundary s f) (g : Bool) :
    (s.afterBoundary f g).takeFirst f = { s.afterBoundary f g with
      link := { (s.afterBoundary f g).link with
        filling := [f.row], held := f.row, cellRx := some ⟨f.controlRow, false⟩, expected := 1
        cellTx := ((s.afterBoundary f g).placeNotice f).link.cellTx }
      linkOut := some (((s.afterBoundary f g).placeNotice f).forwarded f 0 false)
      out := { (s.afterBoundary f g).out with recording := [((s.afterBoundary f g).placeNotice f).recordRow 0] }
      records := ((s.afterBoundary f g).placeNotice f).records } := by
  obtain ⟨_, _, first, _, _⟩ := h
  refine State.takeFirst_eq ?_ ?_ ?_ (State.boundary_recording _ _ _ _)
  · rw [State.afterBoundary_link]
    exact first
  · rw [State.afterBoundary_link]
  · rw [State.afterBoundary_link]

/-- What the frame of a boundary leaves: all but the link port, the recorded values and the queue of notices stand as the
boundary left them. -/
structure TakesFirst (u t : State) : Prop where
  tap : t.tap = u.tap
  ramps : t.ramps = u.ramps
  store : t.store = u.store
  gens : t.gens = u.gens
  lines : t.lines = u.lines
  mem : t.mem = u.mem
  output : t.out = { u.out with recording := t.out.recording }
  records : SameButNotices u.records t.records
  rest : t.dram = u.dram ∧ t.position = u.position ∧ t.resetPin = u.resetPin ∧ t.powerCycle = u.powerCycle ∧
    t.passSerial = u.passSerial ∧ t.pending = u.pending
  block : t.link.block = u.link.block

theorem State.takesFirst (u : State) (f : Frame) (first : u.link.expected = 0) : TakesFirst u (u.takeFirst f) := by
  have position : (u.placeNotice f).link.expected = 0 := by simp [first]
  refine ⟨?_, ?_, ?_, ?_, ?_, ?_, ?_, ?_, ⟨?_, ?_, ?_, ?_, ?_, ?_⟩, ?_⟩
  case refine_7 =>
    rw [State.takeFirst, State.takePosition_out]
    simp
  case refine_8 =>
    rw [State.takeFirst, State.takePosition_records_at_zero _ _ _ position]
    exact u.placeNotice_records f
  case refine_15 =>
    rw [State.takeFirst, State.takePosition_link_at_zero _ _ position]
    show (u.placeNotice f).link.block = u.link.block
    rw [State.placeNotice_link]
  all_goals simp [State.takeFirst]

/-- The arrival of a boundary frame leaves all but the link port, the recorded values and the queue of notices as the
boundary left them. -/
theorem exec_boundary_takes {s : State} {f : Frame} (h : AtBoundary s f) (g : Bool) :
    ∃ t, exec (.frameArrival f g) s = .next t ∧ TakesFirst (s.afterBoundary f g) t := by
  refine ⟨_, exec_boundary h g, State.takesFirst _ f ?_⟩
  obtain ⟨_, _, first, _, _⟩ := h
  rw [State.afterBoundary_link]
  exact first

/-- Settles O5: the samples stand after the arrival, and beside a pending BLOCK change the flag follows that. -/
theorem guardBIsSampledAtEveryArrival : Obligations.GuardBIsSampledAtEveryArrival := by
  refine ⟨fun g s => s.atArrival_notices g, fun f g s released => ?_⟩
  obtain ⟨guardB, next, trips⟩ := (sampled_atArrival s g).takeArrival f
  refine ⟨_, exec_frameArrival released f g, fun c channel apart => ?_, next, guardB, fun k => ?_⟩
  · rw [← State.atArrival_silence s g channel]
    by_cases boundary : AtBoundary s f
    · have pending : s.out.silencePending.getD c none = none := apart.resolve_left (not_not_intro boundary)
      obtain ⟨t, executes, takes⟩ := exec_boundary_takes boundary g
      have same : (s.atArrival g).takeArrival f = t := by
        have both := (exec_frameArrival released f g).symm.trans executes
        simpa using both
      have flags := State.boundary_silence (s.beforeBoundary g) s.link.block f.block (f.block != s.link.block + 1) channel
      have none : (s.beforeBoundary g).out.silencePending.getD c none = none := pending
      rw [none] at flags
      rw [same, takes.output]
      exact flags
    · rw [takeArrival_silence (s := s.atArrival g) released boundary]
  · exact (trips k).trans (GuardGroup.sampledTrip_eq _ g)

/-! ### Generators -/

/-- R94: the generators after a boundary. -/
theorem State.boundary_gens (s : State) (b n : Block) (x : Bool) : (s.boundary b n x).gens =
    if s.records.node = .quiescent then s.gens else s.gens.map Generator.stepped := by
  obtain ⟨_, _, _, _, gens, _⟩ := s.boundaryReady_keeps b n x
  rw [← gens, State.boundary_eq]
  split <;> simp

/-- R100: the compare test in the words of the obligation. -/
theorem Generator.compares_iff (g : Generator) : g.compares = true ↔ g.mode ≠ .off ∧ g.step.counter = g.compareValue ∧
    (if g.mode = .triangle then g.step.dir else .up) = g.compareDir := by
  have direction : g.testDirection = if g.mode = .triangle then g.step.dir else .up := by
    unfold Generator.testDirection
    cases g.mode <;> rfl
  simp [Generator.compares, direction, and_assoc]

/-- R101: a step leaves the postscale and its count. -/
theorem Generator.step_keeps_postscale (g : Generator) :
    g.step.postCount = g.postCount ∧ g.step.postscale = g.postscale := by
  unfold Generator.step
  split
  · exact ⟨rfl, rfl⟩
  · split <;> exact ⟨rfl, rfl⟩
  · split <;> exact ⟨rfl, rfl⟩
  · split
    · exact ⟨rfl, rfl⟩
    · split <;> exact ⟨rfl, rfl⟩

/-- Settles O43: the generators step at a boundary, mode by mode. -/
theorem generatorsStepAtTheBoundary : Obligations.GeneratorsStepAtTheBoundary := by
  refine ⟨fun f g s h => ?boundary, fun g => ?stepped, fun g k n range => ?notices, fun g => ?step⟩
  case boundary =>
    obtain ⟨t, executes, takes⟩ := exec_boundary_takes h g
    rw [← (s.beforeBoundary_records g).node]
    exact ⟨t, executes, takes.gens.trans (State.boundary_gens (s.beforeBoundary g) _ _ _)⟩
  case stepped =>
    obtain ⟨count, scale⟩ := g.step_keeps_postscale
    have advanced : g.step.advance =
        { g.step with postCount := if g.postCount + 1 = g.postscale then 0 else g.postCount + 1 } := by
      rw [← count, ← scale, Generator.advance]
    simp only [Generator.stepped, advanced, Bool.and_eq_true, Generator.compares_iff, and_assoc]
  case notices =>
    have ends : g.endsRun = true ↔ g.mode = .single ∧ g.counter = g.period := by
      simp only [Generator.endsRun, Bool.and_eq_true, beq_iff_eq, decide_eq_true_eq]
      exact and_congr_right fun _ => ⟨fun h => Nat.le_antisymm range h, fun h => h.ge⟩
    unfold Generator.stepNotices
    simp only [Bool.and_eq_true, Generator.compares_iff, beq_iff_eq, ends, and_assoc]
  case step =>
    refine ⟨fun off => ?_, fun ramp below => ?_, fun ramp full => ?_, fun single below => ?_, fun single full => ?_,
      fun triangle up => ?_, fun triangle down high => ?_, fun triangle down low => ?_⟩
    · simp only [Generator.step, off]
    · simp only [Generator.step, ramp, if_pos below]
    · simp only [Generator.step, ramp, full, Nat.lt_irrefl, if_false]
    · simp only [Generator.step, single, if_pos below]
    · simp only [Generator.step, single, full, Nat.lt_irrefl, if_false]
    · simp only [Generator.step, triangle, up]
    · simp only [Generator.step, triangle, down]
      rw [if_neg (by omega)]
    · simp only [Generator.step, triangle, down, low, Nat.sub_self, if_true]

end Sys2Proof.Machine
end

section
/-! PROOF. The pending swap and the drain at a boundary (R32 to R38, R88, R89). -/

namespace Sys2Proof.Machine

open Sys2Proof.Safety

/-! ### The pending swap -/

/-- R33: a block is after another just when their signed difference is above 0. -/
theorem blockAfter_iff (n m : Block) : blockAfter n m = true ↔ 0 < (n - m).toInt := by
  simp [blockAfter, blockBefore]

/-- R32 to R34: when a pending swap comes due, trigger by trigger. -/
theorem PendingSwap.due_eq (w : PendingSwap) (served : List (Fin 4)) (n : Block) :
    (w.trigger = .next → w.due served n = some .done) ∧
    (∀ m, w.trigger = .atBlock m → w.due served n =
      if w.late = true ∨ 0 < (n - m).toInt then some .late else if n = m then some .done else none) ∧
    ∀ k, w.trigger = .onCompare k → w.due served n = if k ∈ served then some .done else none := by
  refine ⟨fun next => ?_, fun m atBlock => ?_, fun k onCompare => ?_⟩
  · simp only [PendingSwap.due, next]
  · simp only [PendingSwap.due, atBlock, blockAfter_iff]
    by_cases same : n = m
    · subst same
      simp
    · simp only [same, if_false]
      split <;> simp_all
  · simp only [PendingSwap.due, onCompare, List.contains_iff_mem]

section
variable {s : State} {b n : Block} {x : Bool}

/-- R32 to R34: a pending swap that comes due at a boundary. -/
theorem State.boundarySwapped_of_due {w : PendingSwap} (pending : s.store.swap = some w) (due : ComesDue s w n) :
    ∃ o, s.boundarySwapped b n x = (((s.boundaryTurned b n x).stepGenerators n).takeSwap w o n, true) := by
  obtain ⟨store, _, gens, _, _, records, _⟩ := s.boundaryTurned_keeps b n x
  obtain ⟨o, outcome⟩ := (s.comesDue_iff w n).2 due
  have served : (s.boundaryTurned b n x).served = s.served := by simp [State.served, State.gensStep, records.node, gens]
  have stepped : ((s.boundaryTurned b n x).stepGenerators n).store.swap = some w := by simp [store, pending]
  refine ⟨o, ?_⟩
  simp only [State.boundarySwapped, State.swapAtBoundary, served, stepped, outcome]

/-- R37: at a boundary at which no swap comes due the fade is checked. -/
theorem State.boundarySwapped_of_waits (waits : ∀ w, s.store.swap = some w → ¬ComesDue s w n) :
    s.boundarySwapped b n x = (((s.boundaryTurned b n x).stepGenerators n).fadeCheck, false) := by
  obtain ⟨store, _, gens, _, _, records, _⟩ := s.boundaryTurned_keeps b n x
  have served : (s.boundaryTurned b n x).served = s.served := by simp [State.served, State.gensStep, records.node, gens]
  have stepped : ((s.boundaryTurned b n x).stepGenerators n).store.swap = s.store.swap := by simp [store]
  unfold State.boundarySwapped State.swapAtBoundary
  rw [stepped, served]
  cases pending : s.store.swap with
  | none => rfl
  | some w =>
    have never : w.due s.served n = none := by
      cases outcome : w.due s.served n with
      | none => rfl
      | some o => exact absurd ((s.comesDue_iff w n).1 ⟨o, outcome⟩) (waits w pending)
    simp only [never]

/-- R37: what the check of a fade leaves of the store. -/
theorem State.fadeCheck_store (u : State) : u.fadeCheck.store = { u.store with
    fade := u.store.fade && !u.store.endReady
    endReady := if u.store.fade = true ∧ u.store.endReady = true then false else u.store.endReady } := by
  unfold State.fadeCheck
  cases ends : u.store.fade && u.store.endReady with
  | true =>
    obtain ⟨fade, ready⟩ := Bool.and_eq_true_iff.1 ends
    simp [State.endFade, fade, ready]
  | false =>
    have fade : (u.store.fade && !u.store.endReady) = u.store.fade := by
      revert ends
      cases u.store.fade <;> simp
    have ready : ¬(u.store.fade = true ∧ u.store.endReady = true) := by simpa using ends
    rw [if_neg (by simp), fade, if_neg ready]

theorem State.boundary_store (s : State) (b n : Block) (x : Bool) :
    (s.boundary b n x).store = (s.boundaryClosed b n x).store := by
  obtain ⟨_, _, _, _, _, _, _, _, _, _, _, _, _, _, _, _, store⟩ := s.boundaryReady_keeps b n x
  rw [← store, State.boundary_eq]
  split <;> simp

/-- R35, R37: a swap that comes due takes effect at the boundary. -/
theorem State.boundary_store_of_due {w : PendingSwap} (pending : s.store.swap = some w) (due : ComesDue s w n) :
    (s.boundary b n x).store =
      { s.store with active := otherBank s.store.active, fade := w.fade != .cut, endReady := false, swap := none } := by
  obtain ⟨store, _⟩ := s.boundaryTurned_keeps b n x
  obtain ⟨o, swapped⟩ := State.boundarySwapped_of_due (b := b) (x := x) pending due
  obtain ⟨_, _, kept, _⟩ := State.closePass_rest (s.boundarySwapped b n x).1 (s.boundarySwapped b n x).2
  rw [State.boundary_store, State.boundaryClosed, kept (by rw [swapped]), swapped, State.takeSwap_store]
  simp [store]

/-- R37: where no swap comes due, a fade whose end-ready mark is set ends. -/
theorem State.boundary_store_of_waits (waits : ∀ w, s.store.swap = some w → ¬ComesDue s w n) :
    (s.boundary b n x).store = { s.store with
      fade := s.store.fade && !s.store.endReady, endReady := (s.boundary b n x).store.endReady } := by
  obtain ⟨store, _⟩ := s.boundaryTurned_keeps b n x
  have swapped := State.boundarySwapped_of_waits (b := b) (x := x) waits
  obtain ⟨_, kept, _⟩ := State.closePass_rest (s.boundarySwapped b n x).1 (s.boundarySwapped b n x).2
  rw [State.boundary_store, State.boundaryClosed, kept, swapped, State.fadeCheck_store]
  simp [store]

/-- R88, R89: the records that await the mute leave their list and queue notices alone. -/
theorem State.completeMutes_same (u : State) (o : RecordOutcome) :
    SameButNotices { u.records with awaitingMute := [] } (u.completeMutes o).records := by
  have completes (l : List AwaitingMute) (q : Records) : SameButNotices q
      (l.foldl (fun r m => r.complete u.noticeBlock m.tag .state m.notify o {}) q) := by
    induction l generalizing q with
    | nil => exact .refl _
    | cons m l ih => exact (sameButNotices_complete _ _ _ _ _ _ _).trans (ih _)
  exact completes _ _

/-- R36, R89: the table-class queue at a boundary is the one the swap left. -/
theorem State.boundary_table (s : State) (b n : Block) (x : Bool) :
    (s.boundary b n x).records.table = (s.boundarySwapped b n x).1.records.table := by
  obtain ⟨closed, _⟩ := State.closePass_rest (s.boundarySwapped b n x).1 (s.boundarySwapped b n x).2
  have drained (u : State) : u.drainAtBoundary.records.table = u.records.table := by
    unfold State.drainAtBoundary
    split
    · split
      · exact (State.completeMutes_same _ .done).table
      · rfl
    · rfl
  have ready : (s.boundaryReady b n x).records.table = (s.boundarySwapped b n x).1.records.table := by
    rw [State.boundaryReady, drained]
    exact closed.table
  rw [State.boundary_eq, ← ready]
  split <;> simp [State.beginPass, State.muteCheck_eq, State.beginNoPass]

end

/-! ### Whether a boundary begins a pass -/

/-- R89: in MUTING a boundary counts toward a drain that has begun. -/
theorem State.drainAtBoundary_of_first {u : State} (muting : u.records.node = .muting) (first : u.records.drain = some 0) :
    u.drainAtBoundary = u.withRecords { u.records with drain := some 1 } := by
  simp [State.drainAtBoundary, muting, first]

/-- R89: the second boundary of a drain ends it. -/
theorem State.drainAtBoundary_of_second {u : State} {k : Nat} (muting : u.records.node = .muting)
    (second : u.records.drain = some (k + 1)) :
    u.drainAtBoundary = (u.withRecords { u.records with node := .muted, drain := none }).completeMutes .done := by
  simp [State.drainAtBoundary, muting, second]

/-- R89: without a drain in MUTING a boundary leaves the node state. -/
theorem State.drainAtBoundary_of_none {u : State} (still : u.records.node ≠ .muting ∨ u.records.drain = none) :
    u.drainAtBoundary = u := by
  unfold State.drainAtBoundary
  split
  next muting drains =>
    rcases still with other | none
    · exact absurd muting other
    · simp [none] at drains
  · rfl

/-- R89, R92: no drain leads into QUIESCENT or out of it. -/
theorem State.drainAtBoundary_quiescent (u : State) :
    u.drainAtBoundary.records.node = .quiescent ↔ u.records.node = .quiescent := by
  by_cases still : u.records.node ≠ .muting ∨ u.records.drain = none
  · rw [State.drainAtBoundary_of_none still]
  · obtain ⟨muting, drains⟩ : u.records.node = .muting ∧ u.records.drain ≠ none := by simpa using still
    obtain ⟨k, counted⟩ := Option.ne_none_iff_exists'.1 drains
    cases k with
    | zero =>
      rw [State.drainAtBoundary_of_first muting counted]
      exact Iff.rfl
    | succ k =>
      rw [State.drainAtBoundary_of_second muting counted, (State.completeMutes_same _ _).node]
      simp [muting]

section
variable (s : State) (b n : Block) (x : Bool)

theorem State.boundaryReady_link : (s.boundaryReady b n x).link = { s.link with
    complete := s.link.filling, filling := [], block := n, badRun := 0, lostZero := false } := by
  obtain ⟨link, _⟩ := s.boundaryReady_keeps b n x
  obtain ⟨_, _, _, _, turned, _⟩ := s.boundaryTurned_keeps b n x
  rw [link, turned]
  rfl

/-- R42: where a boundary begins a pass. -/
theorem State.boundary_begins_iff (locked : s.link.state = .locked) :
    ((s.boundaryReady b n x).passMayBegin && !x) = true ↔
      x = false ∧ s.records.node ≠ .quiescent ∧ s.mem.state = .ready := by
  obtain ⟨_, _, mem, _⟩ := s.boundaryReady_keeps b n x
  obtain ⟨node, _⟩ := s.boundaryClosed_records b n x
  have quiescent : (s.boundaryReady b n x).records.node = .quiescent ↔ s.records.node = .quiescent := by
    rw [← node]
    exact State.drainAtBoundary_quiescent _
  have link : (s.boundaryReady b n x).link.state = .locked := by
    rw [State.boundaryReady_link]
    exact locked
  simp only [State.passMayBegin, link, mem, Bool.and_eq_true, beq_iff_eq, bne_iff_ne, ne_eq, quiescent,
    Bool.not_eq_true', true_and]
  tauto

variable {s b n x} (locked : s.link.state = .locked)
include locked

/-- R42, R43: a boundary that begins a pass. -/
theorem State.boundary_of_begins (plays : s.records.node ≠ .quiescent) (ready : s.mem.state = .ready) :
    s.boundary b n false = ((s.boundaryReady b n false).beginPass b).reapEnding.advanceMem := by
  rw [State.boundary_eq, if_pos ((s.boundary_begins_iff b n false locked).2 ⟨rfl, plays, ready⟩)]

/-- R12, R42: a boundary that begins no pass. -/
theorem State.boundary_of_begins_not (none : x = true ∨ s.records.node = .quiescent ∨ s.mem.state ≠ .ready) :
    s.boundary b n x = ((s.boundaryReady b n x).beginNoPass n).reapEnding.advanceMem := by
  rw [State.boundary_eq, if_neg]
  rw [s.boundary_begins_iff b n x locked]
  rintro ⟨same, plays, ready⟩
  rcases none with renumbers | quiescent | other
  · simp [same] at renumbers
  · exact plays quiescent
  · exact other ready

end

/-! ### The swap -/

/-- The samples of an arrival read no swap. -/
theorem State.comesDue_beforeBoundary (s : State) (w : PendingSwap) (n : Block) (g : Bool) :
    ComesDue (s.beforeBoundary g) w n ↔ ComesDue s w n := by
  unfold ComesDue
  rw [(s.beforeBoundary_records g).node]
  exact Iff.rfl

/-- R43, R81, R89: what the start of a pass leaves. -/
theorem State.beginPass_eq (s : State) (b : Block) : s.beginPass b = { s with
    tap := { s.tap with state := .writing, number := b, pass := some (s.newPass b) }
    passSerial := s.passSerial + 1
    ramps := s.stepAllRamps.ramps
    records := { s.records with
      drain := if s.records.node = .muting ∧ s.records.drain = none ∧ ∀ m ∈ s.stepAllRamps.ramps.masters, SilentRamp m
        then some 0 else s.records.drain } } :=
  State.muteCheck_eq _

/-- R81: a bank without ramps has none after a boundary either. -/
theorem State.boundary_taps_of_empty {s : State} {b n : Block} {x : Bool} {k : BankNo}
    (empty : (s.boundaryClosed b n x).ramps.taps k = List.replicate 1024 none) :
    (s.boundary b n x).ramps.taps k = List.replicate 1024 none := by
  obtain ⟨_, _, _, _, _, _, _, _, _, _, _, _, _, _, _, ramps, _⟩ := s.boundaryReady_keeps b n x
  rw [← ramps] at empty
  rw [State.boundary_eq]
  split
  · have begun : (((s.boundaryReady b n x).beginPass b).reapEnding.advanceMem).ramps =
        (s.boundaryReady b n x).stepAllRamps.ramps := by
      rw [State.beginPass_eq]
      rfl
    rw [begun, State.stepAllRamps_taps, empty]
    split
    · exact List.map_replicate
    · rfl
  · have kept : (((s.boundaryReady b n x).beginNoPass n).reapEnding.advanceMem).ramps = (s.boundaryReady b n x).ramps := by
      simp
    rw [kept, empty]

/-- Settles O34: at a boundary a pending swap comes due, or it waits and a fade may end. -/
theorem pendingSwapIsJudgedAtEveryBoundary : Obligations.PendingSwapIsJudgedAtEveryBoundary := by
  refine ⟨fun w served n => w.due_eq served n, fun f g s w h pending due => ?due, fun f g s h waits => ?waits⟩
  case due =>
    have comes := (s.comesDue_beforeBoundary w f.block g).2 due
    obtain ⟨t, executes, takes⟩ := exec_boundary_takes h g
    have store := takes.store.trans (State.boundary_store_of_due (s := s.beforeBoundary g) pending comes)
    have table : t.records.table = s.records.table.drop 1 := by
      obtain ⟨o, swapped⟩ := State.boundarySwapped_of_due (s := s.beforeBoundary g) (b := s.link.block)
        (x := f.block != s.link.block + 1) pending comes
      obtain ⟨_, _, _, _, _, turned, _⟩ :=
        (s.beforeBoundary g).boundaryTurned_keeps s.link.block f.block (f.block != s.link.block + 1)
      rw [takes.records.table, State.afterBoundary, State.boundary_table, swapped, State.takeSwap_records]
      simp only [Records.queueNotice_keeps, Records.complete_keeps]
      rw [(State.stepGenerators_records _ _).table, turned.table, (s.beforeBoundary_records g).table]
    refine ⟨t, executes, ?_, ?_, ?_, ?_, table⟩
    · rw [store]
    · rw [store]
      rfl
    · rw [store]
      simp
    · rw [store]
  case waits =>
    have still (w : PendingSwap) (pending : (s.beforeBoundary g).store.swap = some w) :
        ¬ComesDue (s.beforeBoundary g) w f.block := fun comes =>
      waits w pending ((s.comesDue_beforeBoundary w f.block g).1 comes)
    obtain ⟨t, executes, takes⟩ := exec_boundary_takes h g
    have store := takes.store.trans (State.boundary_store_of_waits (s := s.beforeBoundary g) still)
    refine ⟨t, executes, ?_, ?_, ?_, ?_, fun fade ends => ?_⟩
    · rw [store]
      rfl
    · rw [store]
      rfl
    · rw [store]
      rfl
    · obtain ⟨_, _, _, _, _, turned, _⟩ :=
        (s.beforeBoundary g).boundaryTurned_keeps s.link.block f.block (f.block != s.link.block + 1)
      rw [takes.records.table, State.afterBoundary, State.boundary_table, State.boundarySwapped_of_waits still]
      simp only [State.fadeCheck_keeps]
      rw [(State.stepGenerators_records _ _).table, turned.table, (s.beforeBoundary_records g).table]
    · have judged := State.boundaryClosed_judges (s.beforeBoundary g) s.link.block f.block (f.block != s.link.block + 1)
      rw [takes.ramps]
      refine State.boundary_taps_of_empty ?_
      rw [judged.fadeEnded still fade ends]
      exact (Ramps.withTaps_taps _ _ _ _).trans (if_pos rfl)

end Sys2Proof.Machine
end

section
/-! PROOF. The drain at a boundary (R88, R89). -/

namespace Sys2Proof.Machine

open Sys2Proof.Safety

section
variable {s : State} {b n : Block} {x : Bool}

/-- What the drain of a boundary acts on. -/
def State.boundaryDrained (s : State) (b n : Block) (x : Bool) : State :=
  (s.boundaryClosed b n x).exchangeBuffers.copyChannels.withOut
    (s.boundaryClosed b n x).exchangeBuffers.copyChannels.out.takeSilencePending

theorem State.boundaryReady_eq : s.boundaryReady b n x = (s.boundaryDrained b n x).drainAtBoundary := rfl

theorem State.boundaryDrained_records : (s.boundaryDrained b n x).records = (s.boundaryClosed b n x).records := by
  unfold State.boundaryDrained
  generalize s.boundaryClosed b n x = u
  rfl

/-- R89: the first boundary of a drain counts. -/
theorem State.boundaryReady_of_first (muting : s.records.node = .muting) (first : s.records.drain = some 0) :
    (s.boundaryReady b n x).records = { (s.boundaryClosed b n x).records with drain := some 1 } := by
  obtain ⟨node, drain, _⟩ := s.boundaryClosed_records b n x
  rw [← State.boundaryDrained_records] at node drain ⊢
  rw [State.boundaryReady_eq, State.drainAtBoundary_of_first (node.trans muting) (drain.trans first), State.withRecords_records]

/-- R88, R89: the second boundary of a drain queues notices, and takes the node to MUTED. -/
theorem State.drainAtBoundary_second_same {u : State} {k : Nat} (muting : u.records.node = .muting)
    (second : u.records.drain = some (k + 1)) :
    SameButNotices { u.records with node := .muted, drain := none, awaitingMute := [] } u.drainAtBoundary.records := by
  rw [State.drainAtBoundary_of_second muting second]
  exact State.completeMutes_same (u.withRecords { u.records with node := .muted, drain := none }) .done

/-- R89: the second ends it. -/
theorem State.boundaryReady_of_second (muting : s.records.node = .muting) {k : Nat}
    (second : s.records.drain = some (k + 1)) : SameButNotices
      { (s.boundaryClosed b n x).records with node := .muted, drain := none, awaitingMute := [] }
      (s.boundaryReady b n x).records := by
  obtain ⟨node, drain, _⟩ := s.boundaryClosed_records b n x
  rw [← State.boundaryDrained_records] at node drain ⊢
  exact State.drainAtBoundary_second_same (node.trans muting) (drain.trans second)

theorem State.boundaryReady_of_none (still : s.records.drain = none) :
    (s.boundaryReady b n x).records = (s.boundaryClosed b n x).records := by
  obtain ⟨_, drain, _⟩ := s.boundaryClosed_records b n x
  rw [← State.boundaryDrained_records] at drain ⊢
  rw [State.boundaryReady_eq, State.drainAtBoundary_of_none (.inr (drain.trans still))]

/-- R89: the start of a pass begins a drain in MUTING alone, and where none has begun. -/
theorem State.boundary_records_of_drained
    (drained : (s.boundaryReady b n x).records.node ≠ .muting ∨ (s.boundaryReady b n x).records.drain ≠ none) :
    (s.boundary b n x).records = (s.boundaryReady b n x).records := by
  rw [State.boundary_eq]
  split
  · rw [State.beginPass_eq, if_neg fun ⟨muting, still, _⟩ => drained.elim (· muting) (· still)]
    rfl
  · simp

end

/-- Settles O47: in MUTING a boundary counts toward the drain, ends it, or begins it with its pass. -/
theorem drainTakesTheNodeToMuted : Obligations.DrainTakesTheNodeToMuted := by
  intro f g s h muting
  obtain ⟨t, executes, takes⟩ := exec_boundary_takes h g
  have records := takes.records
  have before := s.beforeBoundary_records g
  have muting' := before.node.trans muting
  obtain ⟨node, drain, awaiting, _⟩ :=
    (s.beforeBoundary g).boundaryClosed_records s.link.block f.block (f.block != s.link.block + 1)
  refine ⟨t, executes, fun first => ?first, fun k second => ?second, fun still next ready => ?none⟩
  case first =>
    have counted := State.boundaryReady_of_first (b := s.link.block) (n := f.block) (x := f.block != s.link.block + 1)
      muting' (before.drain.trans first)
    rw [State.afterBoundary, State.boundary_records_of_drained (.inr (by rw [counted]; simp)), counted] at records
    exact ⟨records.node.trans (node.trans muting'), records.drain,
      records.awaitingMute.trans (awaiting.trans before.awaitingMute)⟩
  case second =>
    have ended := State.boundaryReady_of_second (b := s.link.block) (n := f.block) (x := f.block != s.link.block + 1)
      muting' (before.drain.trans second)
    rw [State.afterBoundary, State.boundary_records_of_drained (.inl (by rw [ended.node]; simp))] at records
    refine ⟨records.node.trans ended.node, records.drain.trans ended.drain, records.awaitingMute.trans ended.awaitingMute,
      fun m mem notify => ?_⟩
    have completions : Notice.completion m.tag Op.state.code .done {} f.block ∈ muteNotices s f.block := by
      simp only [muteNotices, muting, second]
      exact List.mem_map.2 ⟨m, List.mem_filter.2 ⟨mem, notify⟩, rfl⟩
    exact List.mem_append_right _ completions
  case none =>
    obtain ⟨_, locked, _⟩ := h
    have kept := State.boundaryReady_of_none (b := s.link.block) (n := f.block) (x := false)
      (before.drain.trans still)
    have begins := State.boundary_of_begins (s := s.beforeBoundary g) (b := s.link.block) (n := f.block) locked
      (by rw [muting']; simp) ready
    have advances : (f.block != s.link.block + 1) = false := by simp [next]
    rw [advances] at node drain
    have after : s.afterBoundary f g =
        (((s.beforeBoundary g).boundaryReady s.link.block f.block false).beginPass s.link.block).reapEnding.advanceMem := by
      rw [State.afterBoundary, advances, begins]
    have ramps := takes.ramps
    rw [after, State.beginPass_eq] at records ramps
    have node' : ((s.beforeBoundary g).boundaryReady s.link.block f.block false).records.node = .muting := by
      rw [kept, node, muting']
    have drain' : ((s.beforeBoundary g).boundaryReady s.link.block f.block false).records.drain = none := by
      rw [kept, drain, before.drain, still]
    refine ⟨records.node.trans node', records.drain.trans ?_⟩
    rw [ramps]
    simp only [State.advanceMem_keeps, State.reapEnding_keeps, node', drain', true_and]

end Sys2Proof.Machine
end

section
/-! PROOF. The relock of a link that is not LOCKED (R12, R29, R143, R154, R155). -/

namespace Sys2Proof.Machine

open Sys2Proof.Safety

/-! ### The node before the relock frame is taken -/

/-- R12, R29, R143, R155: a relock, but for its frame as position 0. -/
def State.relocked (u : State) (f : Frame) : State := { u with
  link := { u.link with
    state := .locked, block := f.block, badRun := 0, expected := 0, gapTimer := .oneAndHalfPeriods, lostZero := false
    filling := [], complete := [], cellRx := none, cellTx := none }
  lines := { u.lines with floor := f.block }
  out := { u.out with recording := [], recorded := []
                      copy := tab 16 fun c => ⟨(u.store.channel c).slot, (u.store.channel c).group⟩ }
  records := u.records.queueNotice (linkNotice false f.block u.link.block) }

theorem State.relock_eq (u : State) (f : Frame) : u.relock f = (u.relocked f).takeFirst f := rfl

/-- The node before the relock frame `f` is taken. -/
def State.afterRelock (s : State) (f : Frame) (g : Bool) : State :=
  ((s.atArrival g).withLink { s.link with state := .seeking }).relocked f

/-- R143: a good frame of index 0 outside LOCKED relocks. -/
theorem exec_relock {s : State} {f : Frame} (released : s.resetPin = false) (unlocked : s.link.state ≠ .locked)
    (good : f.good = true) (index : f.index = 0) (g : Bool) : exec (.frameArrival f g) s =
      .next ((s.afterRelock f g).takeFirst f) := by
  have executes := exec_frameArrival released f g
  rw [State.takeArrival_of_not_locked (s := s.atArrival g) unlocked, State.seek, if_pos ⟨good, index⟩] at executes
  exact executes

/-- R154, R155: the notices of a relock. -/
theorem State.afterRelock_records (s : State) (f : Frame) (g : Bool) : (s.afterRelock f g).records =
    (lineNotices s g ++ [Notice.link false f.block s.link.block (f.block - s.link.block)]).foldl Records.queueNotice
      s.records := by
  rw [List.foldl_append, ← State.atArrival_notices]
  rfl

/-- R143, R149: the relock frame is taken as position 0 of an empty block. -/
theorem State.afterRelock_takeFirst (s : State) (f : Frame) (g : Bool) : (s.afterRelock f g).takeFirst f =
    { s.afterRelock f g with
      link := { (s.afterRelock f g).link with
        filling := [f.row], held := f.row, cellRx := some ⟨f.controlRow, false⟩, expected := 1
        cellTx := ((s.afterRelock f g).placeNotice f).link.cellTx }
      linkOut := some (((s.afterRelock f g).placeNotice f).forwarded f 0 false)
      out := { (s.afterRelock f g).out with recording := [((s.afterRelock f g).placeNotice f).recordRow 0] }
      records := ((s.afterRelock f g).placeNotice f).records } :=
  State.takeFirst_eq rfl rfl rfl rfl

/-- R119: with no source B enabled a sample queues nothing. -/
theorem lineNotices_of_disabled {s : State} (disabled : ∀ k : Fin 4, (s.out.group k.val).bEnable = false) (g : Bool) :
    lineNotices s g = [] := by
  simp [lineNotices, disabled]

/-- R151, R154: the control bytes with which a frame leaves. -/
theorem State.forwarded_control (s : State) (f : Frame) (i : Nat) (bad : Bool) :
    (s.forwarded f i bad).control = s.controlOut f i := by
  unfold State.forwarded
  dsimp only
  generalize (if bad then f.flags ||| 1 else f.flags) = flags
  split
  next same => exact (congrArg Frame.control same).symm
  · rfl

/-- R154: the oldest notice of a relock leaves the queue for an IDLE cell. -/
theorem State.afterRelock_placeNotice (s : State) (f : Frame) (g : Bool) :
    ((s.afterRelock f g).placeNotice f).records =
      { (s.afterRelock f g).records with notices := ((s.afterRelock f g).placeNotice f).records.notices } ∧
    (f.controlRow.getD 0 0 = 0 →
      ((s.afterRelock f g).placeNotice f).records.notices = (s.afterRelock f g).records.notices.drop 1 ∧
      ((s.afterRelock f g).placeNotice f).link.cellTx =
        (s.afterRelock f g).records.notices.head?.map fun n => n.cell s.position) ∧
    (f.controlRow.getD 0 0 ≠ 0 →
      ((s.afterRelock f g).placeNotice f).records.notices = (s.afterRelock f g).records.notices ∧
      ((s.afterRelock f g).placeNotice f).link.cellTx = none) := by
  by_cases idle : f.controlRow.getD 0 0 = 0
  · rw [State.placeNotice_of_idle _ idle]
    refine ⟨rfl, fun _ => ⟨rfl, ?_⟩, fun busy => absurd idle busy⟩
    show (if _ then _ else _) = _
    split
    next empty =>
      rw [empty]
      rfl
    · rfl
  · rw [State.placeNotice_of_busy _ idle]
    exact ⟨rfl, fun h => absurd h idle, fun _ => ⟨rfl, rfl⟩⟩

/-- Settles O6: a good frame of index 0 relocks a link that is not LOCKED, and is taken as its position 0. -/
theorem relockTakesTheFrameAsPositionZero : Obligations.RelockTakesTheFrameAsPositionZero := by
  refine ⟨fun f g s released unlocked good index => ?frame, fun f g s released unlocked good index empty disabled idle =>
    ?rides, fun f g s released unlocked good index => ?notices⟩
  all_goals
    have executes := exec_relock released unlocked good index g
    rw [State.afterRelock_takeFirst] at executes
    obtain ⟨records, idles, busies⟩ := s.afterRelock_placeNotice f g
  case frame =>
    exact ⟨_, executes, rfl, rfl, rfl, rfl, rfl, rfl, rfl, rfl, rfl, rfl, fun c channel => getD_tab _ _ _ _ channel, rfl, rfl,
      rfl⟩
  case rides =>
    obtain ⟨notices, cell⟩ := idles idle
    have queued : (s.afterRelock f g).records.notices = [Notice.link false f.block s.link.block (f.block - s.link.block)] := by
      rw [State.afterRelock_records, lineNotices_of_disabled disabled]
      simp [Records.queueNotice, empty]
    rw [queued] at notices cell
    refine ⟨_, _, executes, notices, rfl, fun k below => ?_⟩
    rw [State.forwarded_control, State.controlOut, cell]
    exact (getD_tab _ _ _ _ below).trans (by rw [Nat.mul_zero, Nat.zero_add])
  case notices =>
    dsimp only
    rw [← State.afterRelock_records]
    exact ⟨_, executes, records, idles, busies⟩

end Sys2Proof.Machine
end

section
/-! PROOF. A position in LOCKED: what it leaves of the node, and how a complete cell reaches the record engine (R144, R147,
R149 to R153, R158 to R163). -/

namespace Sys2Proof.Machine

open Sys2Proof.Safety

/-! ### The record engine sees the records and the block in progress alone -/

/-- Two nodes with the same record engine and the same block in progress as notices carry it. -/
structure SameEngine (t u : State) : Prop where
  records : t.records = u.records
  block : t.noticeBlock = u.noticeBlock

namespace SameEngine
variable {t u : State} (h : SameEngine t u)
include h

theorem queueNotice (n : Notice) : SameEngine (t.queueNotice n) (u.queueNotice n) :=
  ⟨congrArg (Records.queueNotice · n) h.records, h.block⟩

theorem withRecords (q : Records) : SameEngine (t.withRecords q) (u.withRecords q) := ⟨rfl, h.block⟩

theorem withAssembly (a : Option Assembly) : SameEngine (t.withAssembly a) (u.withAssembly a) := by
  unfold State.withAssembly
  rw [h.records]
  exact h.withRecords _

theorem complete (tag : Half) (op : Op) (notify : Bool) (o : RecordOutcome) (c : Counts) :
    SameEngine (t.complete tag op notify o c) (u.complete tag op notify o c) := by
  unfold State.complete
  rw [h.records, h.block]
  exact h.withRecords _

theorem enqueue (r : Record) : SameEngine (t.enqueue r) (u.enqueue r) := by
  unfold State.enqueue
  rw [h.records]
  split
  · exact h.withRecords _
  · split
    · split
      · exact h.withRecords _
      · exact h.complete _ _ _ _ _
    · split
      · exact h.withRecords _
      · exact h.complete _ _ _ _ _

theorem refuseRecord (tag : Half) (code : Byte) (first : Nat) :
    SameEngine (t.refuseRecord tag code first) (u.refuseRecord tag code first) := by
  unfold State.refuseRecord
  rw [h.block]
  exact h.queueNotice _

theorem abandonAssembly : SameEngine t.abandonAssembly u.abandonAssembly := by
  unfold State.abandonAssembly
  rw [h.records, h.block]
  split
  · exact h
  · exact (h.withAssembly _).queueNotice _

theorem testAssembly (a : Assembly) (index : Nat) (last : Bool) :
    SameEngine (t.testAssembly a index last) (u.testAssembly a index last) := by
  unfold State.testAssembly
  dsimp only
  split
  · exact (h.withAssembly _).refuseRecord _ _ _
  · split
    · exact (h.withAssembly _).enqueue _
    · exact h.withAssembly _

theorem startAssembly (g : Fragment) : SameEngine (t.startAssembly g) (u.startAssembly g) := by
  unfold State.startAssembly
  dsimp only
  split
  · exact h.refuseRecord _ _ _
  · split
    · exact h.refuseRecord _ _ _
    · exact h.testAssembly _ _ _

theorem continueAssembly (g : Fragment) : SameEngine (t.continueAssembly g) (u.continueAssembly g) := by
  unfold State.continueAssembly
  rw [h.records]
  split
  · exact h
  · split
    · exact h.testAssembly _ _ _
    · exact h.abandonAssembly

theorem takeFragment (g : Fragment) : SameEngine (t.takeFragment g) (u.takeFragment g) := by
  unfold State.takeFragment
  split
  · split
    · exact h.abandonAssembly.refuseRecord _ _ _
    · exact h.abandonAssembly
  · split
    · exact h.abandonAssembly.startAssembly _
    · exact h.continueAssembly _

/-- R158 to R163: what a cell does to the record engine reads nothing else of the node but its position. -/
theorem takeCell (position : t.position = u.position) (b : List Byte) : SameEngine (t.takeCell b) (u.takeCell b) := by
  unfold State.takeCell
  rw [position]
  split
  · exact h.takeFragment _
  · exact h

end SameEngine

/-! ### A position -/

section
variable (s : State) (f : Option Frame) (bad : Bool)

/-- R144: a position changes the link port, the frame that leaves, the recorded values and, at its end, the record engine. -/
theorem State.takePosition_eq : s.takePosition f bad = { s with
    link := (s.takePosition f bad).link, linkOut := f.map fun f => s.forwarded f s.link.expected bad
    out := { s.out with recording := (s.takePosition f bad).out.recording }
    records := (s.takePosition f bad).records } := by
  have out := s.takePosition_out bad f
  have linkOut : (s.takePosition f bad).linkOut = f.map fun f => s.forwarded f s.link.expected bad := by
    unfold State.takePosition
    dsimp only
    split <;> simp
  simp only [State.eq_iff, State.takePosition_keeps]
  exact ⟨⟨trivial, trivial, trivial, linkOut, trivial, trivial, trivial, trivial⟩, trivial, trivial, trivial, out, trivial,
    trivial, trivial, trivial⟩

/-- R147, R150: the values recorded at a position: what a forwarded frame took, or zeros. -/
def State.recorded : SlotRow :=
  (f.map fun _ => s.recordRow s.link.expected).getD (List.replicate 16 0)

/-- R150, log 13: the recorded rows after a position: in its place where frame 0 is lost, else appended. -/
theorem State.takePosition_rows : (s.takePosition f bad).out.recording =
    if s.link.lostZero = true ∨ (s.link.expected = 0 ∧ bad = true) then
      s.out.recording.set s.link.expected (s.recorded f) else s.out.recording ++ [s.recorded f] := by
  have handed (p : Prop) [Decidable p] (u : State) : (if p then u.handover else u).out = u.out := by
    split <;> simp
  unfold State.takePosition State.recorded
  dsimp only
  rw [handed]
  cases f <;> simp

/-- R153: before position 31 the record engine does not see the cell. -/
theorem State.takePosition_records (inside : s.link.expected ≠ 31) : (s.takePosition f bad).records = s.records := by
  unfold State.takePosition
  simp [inside]

end

/-- What a position leaves: `f` is none at a missing position. -/
structure Positioned (s : State) (f : Option Frame) (bad : Bool) (t : State) : Prop where
  port : t.link.state = s.link.state ∧ t.link.block = s.link.block ∧ t.link.gapTimer = s.link.gapTimer
  badRun : t.link.badRun = s.link.badRun
  counts : t.link.damagedFrames = s.link.damagedFrames ∧ t.link.missingFrames = s.link.missingFrames
  held : t.link.held = s.captured f bad
  expected : t.link.expected = (s.link.expected + 1) % 32
  cellRx : t.link.cellRx = if s.link.expected = 31 then none else if s.link.expected = 0 then
    some ⟨(f.map Frame.controlRow).getD (List.replicate 8 0), bad⟩
    else s.link.cellRx.map fun c => ⟨c.bytes ++ (f.map Frame.controlRow).getD (List.replicate 8 0), c.bad || bad⟩
  cellTx : t.link.cellTx = if s.link.expected = 31 then none else s.link.cellTx
  filling : t.link.filling = if s.link.expected = 0 ∧ bad = true then s.link.filling.set 0 (s.captured f bad)
    else if s.link.lostZero = true then s.link.filling else s.link.filling ++ [s.captured f bad]
  rows : t.out.recording = if s.link.lostZero = true ∨ (s.link.expected = 0 ∧ bad = true) then
    s.out.recording.set s.link.expected (s.recorded f) else s.out.recording ++ [s.recorded f]
  records : s.link.expected ≠ 31 → t.records = s.records
  linkOut : t.linkOut = f.map fun f => s.forwarded f s.link.expected bad
  whole : t = { s with
    link := t.link, linkOut := f.map fun f => s.forwarded f s.link.expected bad
    out := { s.out with recording := t.out.recording }, records := t.records }

theorem State.positioned (s : State) (f : Option Frame) (bad : Bool) : Positioned s f bad (s.takePosition f bad) := by
  have link := s.takePosition_link f bad
  refine ⟨⟨?_, ?_, ?_⟩, ?_, ⟨?_, ?_⟩, ?_, ?_, ?_, ?_, s.takePosition_filling f bad, s.takePosition_rows f bad,
    s.takePosition_records f bad, ?_, s.takePosition_eq f bad⟩
  case refine_11 => rw [State.takePosition_eq]
  case refine_9 =>
    rw [link]
    cases f <;> rfl
  all_goals rw [link]

end Sys2Proof.Machine
end

section
/-! PROOF. Missing and damaged positions, and good positions inside a block (R142, R144, R147, R149 to R153, log 13). -/

namespace Sys2Proof.Machine

open Sys2Proof.Safety

/-! ### A bad position -/

/-- The node when the run of bad positions has been counted. -/
def State.countBad (s : State) : State := s.withLink { s.link with badRun := s.link.badRun + 1 }

/-- R144: below the third in a row a bad position is filled. -/
theorem State.badPosition_of_below {s : State} (below : s.link.badRun < 2) (f : Option Frame) :
    s.badPosition f = s.countBad.takePosition f true := by
  unfold State.badPosition
  exact if_neg (by show ¬3 ≤ s.link.badRun + 1; omega)

/-- R144, R148: the third in a row loses the link. -/
theorem State.badPosition_of_third {s : State} (third : s.link.badRun = 2) (f : Option Frame) :
    s.badPosition f = s.countBad.loseLink := by
  unfold State.badPosition
  exact if_pos (by show 3 ≤ s.link.badRun + 1; omega)

/-- R144: the tests of a damaged position, in the words of Safety. -/
theorem Link.damages_iff (l : Link) (f : Frame) : l.damages f = true ↔ Damaged l f := by
  simp [Link.damages, Damaged, or_assoc]

/-- The link port as an arrival in LOCKED begins: the frame-gap timer restarts. -/
def State.restarted (s : State) (g : Bool) : State :=
  (s.atArrival g).withLink { s.link with gapTimer := .oneAndHalfPeriods }

/-- The node when a damaged position has been counted. -/
def State.countDamaged (s : State) (g : Bool) : State :=
  (s.atArrival g).withLink { s.link with
    gapTimer := .oneAndHalfPeriods, damagedFrames := countUp s.link.damagedFrames 1 }

/-- The node when a missing position has been counted. -/
def State.countMissing (s : State) : State :=
  s.withLink { s.link with gapTimer := .onePeriod, missingFrames := countUp s.link.missingFrames 1 }

/-- The node when a good position inside a block has cleared the run of bad ones. -/
def State.countGood (s : State) (g : Bool) : State :=
  (s.atArrival g).withLink { s.link with gapTimer := .oneAndHalfPeriods, badRun := 0 }

section
variable {s : State} {f : Frame} (released : s.resetPin = false) (locked : s.link.state = .locked)
include released locked

/-- R144: a damaged position is counted. -/
theorem exec_damaged (damaged : Damaged s.link f) (g : Bool) : exec (.frameArrival f g) s =
    .next ((s.countDamaged g).badPosition (some f)) := by
  have damages : (s.restarted g).link.damages f = true := (Link.damages_iff _ _).2 damaged
  have locked' : (s.atArrival g).link.state = .locked := locked
  have arrives := exec_frameArrival released f g
  rw [State.takeArrival, locked'] at arrives
  exact arrives.trans (congrArg _ (if_pos damages))

/-- R144: a good position inside a block clears the run of bad ones. -/
theorem exec_good (good : ¬Damaged s.link f) (inside : s.link.expected ≠ 0) (g : Bool) : exec (.frameArrival f g) s =
    .next ((s.countGood g).takePosition (some f) false) := by
  have damages : ¬(s.restarted g).link.damages f = true := fun h => good ((Link.damages_iff _ _).1 h)
  have inside' : ¬(s.restarted g).link.expected = 0 := inside
  have locked' : (s.atArrival g).link.state = .locked := locked
  have arrives := exec_frameArrival released f g
  rw [State.takeArrival, locked'] at arrives
  exact arrives.trans (congrArg _ ((if_neg damages).trans (if_neg inside')))

/-- R144: an expiry of the frame-gap timer in LOCKED is counted. -/
theorem exec_gap : exec .frameGapExpiry s = .next (s.countMissing.badPosition none) := by
  refine (State.running_of_released released State.gapExpiry).trans (congrArg _ ?_)
  unfold State.gapExpiry
  split
  · rfl
  next other => simp [other] at locked
  next other => simp [other] at locked

end

/-- R147: after a lost frame 0 nothing but 0 is recorded. -/
theorem State.recordRow_of_lost {s : State} (lost : s.link.lostZero = true) (i : Nat) {c : Nat} (channel : c < 16) :
    (s.recordRow i).getD c 0 = 0 := by
  refine (getD_tab _ (fun c => (s.insertion c i).getD 0) 0 c channel).trans ?_
  unfold State.insertion
  split <;> simp [lost]

/-- R10, R151: how a frame leaves reads no recorded row. -/
theorem leavesAs_withRecording {node : NodeState} {lost : Bool} {o : Output} {cell : Option (List Byte)} {i : Nat}
    {f x : Frame} {row : SlotRow} (leaves : LeavesAs node lost o cell i f x row) (rows : List SlotRow) :
    LeavesAs node lost { o with recording := rows } cell i f x row := by
  obtain ⟨passed, inserted, recorded, control⟩ := leaves
  exact ⟨passed, inserted, recorded, control⟩

/-! ### The obligations -/

/-- Settles O13: an expiry of the frame-gap timer fills a missing position. -/
theorem gapExpiryFillsAMissingPosition : Obligations.GapExpiryFillsAMissingPosition := by
  refine ⟨fun s released locked below => ?fills, fun s unlocked => State.running_of_unchanged ?unlocked⟩
  case unlocked =>
    unfold State.gapExpiry
    split
    next locked => exact absurd locked unlocked
    · rfl
    · rfl
  case fills =>
    have executes := exec_gap released locked
    rw [State.badPosition_of_below (s := s.countMissing) below] at executes
    obtain ⟨⟨state, block, timer⟩, badRun, ⟨_, missing⟩, held, expected, cellRx, _, filling, rows, _, linkOut, whole⟩ :=
      s.countMissing.countBad.positioned none true
    simp only [and_true] at filling rows
    refine ⟨_, executes, linkOut, missing, badRun, expected, held, timer, state.trans locked, block, ?_, filling, rows, whole⟩
    rw [cellRx]
    refine (apply_ite (Option.map CellRx.bad) _ _ _).trans (if_congr Iff.rfl rfl ?_)
    refine (apply_ite (Option.map CellRx.bad) _ _ _).trans (if_congr Iff.rfl rfl ?_)
    simp only [Option.map_map]
    exact congrArg (Option.map · s.link.cellRx) (funext fun c => Bool.or_true c.bad)

/-- Settles O12: a damaged position repeats the held values, and its frame leaves marked. -/
theorem damagedPositionRepeatsTheHeldValues : Obligations.DamagedPositionRepeatsTheHeldValues := by
  intro f g s released locked damaged below
  have executes := exec_damaged released locked damaged g
  rw [State.badPosition_of_below (s := s.countDamaged g) below] at executes
  obtain ⟨⟨state, block, timer⟩, badRun, ⟨counted, _⟩, held, expected, cellRx, _, filling, rows, _, linkOut, whole⟩ :=
    (s.countDamaged g).countBad.positioned (some f) true
  obtain ⟨index, number, flags, check⟩ := (s.countDamaged g).countBad.forwarded_header f s.link.expected true
  simp only [and_true] at filling rows
  refine ⟨_, _, (s.countDamaged g).countBad.recordRow s.link.expected, executes, linkOut, counted, badRun, expected, held,
    state.trans locked, block, timer, ?_, filling, flags, index, number, check, fun distinct => ?_,
    fun lost c channel => State.recordRow_of_lost (s := (s.countDamaged g).countBad) lost _ channel, rows, ?_, ?_, ?_, ?_, ?_,
    ?_, ?_⟩
  · rw [cellRx]
    refine if_congr Iff.rfl rfl (if_congr Iff.rfl rfl ?_)
    exact congrArg (Option.map · s.link.cellRx) (funext fun c => congrArg _ (Bool.or_true c.bad))
  · have leaves := State.forwarded_leaves (s.countDamaged g).countBad f s.link.expected true distinct.copy
    rw [show (s.countDamaged g).countBad.records.node = s.records.node from (s.atArrival_records g).node] at leaves
    rw [whole]
    exact leavesAs_withRecording leaves _
  all_goals
    rw [whole]
    rfl

/-- R29: the copy of the channel table holds no slot twice where the table holds none twice. -/
theorem distinct_copied {s : State} (distinct : SlotsDistinct s) {o : Output}
    (copied : o.copy = tab 16 fun c => ⟨(s.store.channel c).slot, (s.store.channel c).group⟩) :
    ∀ c < 16, ∀ c' < 16, ∀ n, (o.copy.getD c ⟨none, none⟩).slot = some n →
      (o.copy.getD c' ⟨none, none⟩).slot = some n → c = c' := by
  intro c channel c' channel' n holds holds'
  rw [copied, getD_tab _ _ _ _ channel] at holds
  rw [copied, getD_tab _ _ _ _ channel'] at holds'
  exact distinct.table c channel c' channel' n holds holds'

/-- R141, R151: a good frame leaves a position that is not damaged with its header, and with a check that holds. -/
theorem State.forwarded_good (s : State) {f : Frame} (good : f.good = true) (i : Nat) :
    (s.forwarded f i false).index = f.index ∧ (s.forwarded f i false).block = f.block ∧
    (s.forwarded f i false).flags = f.flags ∧ (s.forwarded f i false).checkHolds = true := by
  obtain ⟨index, block, flags, changed⟩ := s.forwarded_header f i false
  refine ⟨index, block, flags, ?_⟩
  by_cases same : s.forwarded f i false = f
  · rw [same]
    simp only [Frame.good, Bool.and_eq_true] at good
    exact good.1
  · exact changed same

/-- A frame taken as position 0 of a block that stands empty. -/
theorem State.takeFirst_forwards {u : State} {f : Frame} (good : f.good = true) (distinct : ∀ c < 16, ∀ c' < 16, ∀ n,
    (u.out.copy.getD c ⟨none, none⟩).slot = some n → (u.out.copy.getD c' ⟨none, none⟩).slot = some n → c = c')
    (first : u.link.expected = 0) (fresh : u.link.lostZero = false) (empty : u.link.filling = [])
    (unrecorded : u.out.recording = []) : ∃ x row, (u.takeFirst f).linkOut = some x ∧ (u.takeFirst f).out.recording = [row] ∧
      x.index = f.index ∧ x.block = f.block ∧ x.flags = f.flags ∧ x.checkHolds = true ∧
      LeavesAs (u.takeFirst f).records.node false (u.takeFirst f).out (u.takeFirst f).link.cellTx 0 f x row := by
  have leaves := State.takeFirst_leaves f distinct fresh
  obtain ⟨index, block, flags, check⟩ := (u.placeNotice f).forwarded_good good 0
  rw [State.takeFirst_eq first fresh empty unrecorded]
  refine ⟨_, _, rfl, rfl, index, block, flags, check, ?_⟩
  rw [(u.placeNotice_records f).node]
  exact leavesAs_withRecording leaves _

/-- Settles O11: a good position is captured, and its frame leaves as Table 31 gives it. -/
theorem goodPositionIsCapturedAndForwarded : Obligations.GoodPositionIsCapturedAndForwarded := by
  refine ⟨fun f g s h distinct => ?inside, fun f g s distinct h => ?first⟩
  case inside =>
    obtain ⟨released, locked, later, _, good, index, number⟩ := h
    have inside : s.link.expected ≠ 0 := later.ne'
    have undamaged : ¬Damaged s.link f := by simp [Damaged, good, index, number]
    have executes := exec_good released locked undamaged inside g
    obtain ⟨⟨state, block, timer⟩, badRun, _, held, expected, cellRx, _, filling, rows, records, linkOut, whole⟩ :=
      (s.countGood g).positioned (some f) false
    obtain ⟨index', block', flags, check⟩ := (s.countGood g).forwarded_good good s.link.expected
    simp only [Bool.false_eq_true, and_false, or_false, if_false] at filling rows
    refine ⟨_, _, _, executes, linkOut, filling, held, badRun, expected, state.trans locked, block, timer, ?_, index', block',
      flags, check, ?_, rows, records, ?_⟩
    · rw [cellRx]
      refine if_congr Iff.rfl rfl ((if_neg inside).trans ?_)
      exact congrArg (Option.map · s.link.cellRx) (funext fun c => congrArg _ (Bool.or_false c.bad))
    · have leaves := State.forwarded_leaves (s.countGood g) f s.link.expected false distinct.copy
      rw [show (s.countGood g).records.node = s.records.node from (s.atArrival_records g).node] at leaves
      rw [whole]
      exact leavesAs_withRecording leaves _
    · simp [State.eq_iff, State.countGood]
  case first =>
    rcases h with h | ⟨released, unlocked, good, index⟩
    · obtain ⟨_, _, first, good, _⟩ := id h
      have link := s.afterBoundary_link f g
      have copied : (s.afterBoundary f g).out.copy = _ := congrArg Output.copy (State.boundary_output _ _ _ _)
      obtain ⟨x, row, rest⟩ := State.takeFirst_forwards (u := s.afterBoundary f g) good (distinct_copied distinct copied)
        (by rw [link]; exact first) (by rw [link]) (by rw [link]) (State.boundary_recording _ _ _ _)
      exact ⟨_, x, row, exec_boundary h g, rest⟩
    · obtain ⟨x, row, rest⟩ := State.takeFirst_forwards (u := s.afterRelock f g) good (distinct_copied distinct rfl)
        rfl rfl rfl rfl
      exact ⟨_, x, row, exec_relock released unlocked good index g, rest⟩

end Sys2Proof.Machine
end

section
/-! PROOF. The handover of a complete cell (R153, R158, log 14), and the third bad position in a row (R52, R57, R148). -/

namespace Sys2Proof.Machine

open Sys2Proof.Safety

/-! ### The handover -/

section
variable {u : State} {c : CellRx} (cell : u.link.cellRx = some c)
include cell

/-- R153: a damaged cell is counted and reaches nothing. -/
theorem State.handover_of_damaged (damaged : c.bad = true ∨ cellCheckHolds c.bytes = false) :
    u.handover.records = u.records ∧ u.handover.link.damagedCells = countUp u.link.damagedCells 1 := by
  unfold State.handover
  rw [cell]
  dsimp only
  rw [if_pos (by simpa using damaged)]
  exact ⟨rfl, rfl⟩

/-- R153, R158: an undamaged cell is taken by the record engine. -/
theorem State.handover_of_whole (whole : c.bad = false ∧ cellCheckHolds c.bytes = true) :
    u.handover.records = (u.takeCell c.bytes).records ∧ u.handover.link.damagedCells = u.link.damagedCells := by
  have same : SameEngine (u.withLink { u.link with cellRx := none }) u := ⟨rfl, rfl⟩
  unfold State.handover
  rw [cell]
  dsimp only
  rw [if_neg (by simp [whole])]
  refine ⟨(same.takeCell rfl _).records, ?_⟩
  simp

end

/-- R153: at position 31 the position's control bytes join the cell, which is handed over. -/
theorem State.takePosition_hands {s : State} {c : CellRx} (last : s.link.expected = 31) (cell : s.link.cellRx = some c)
    (f : Option Frame) (bad : Bool) : ∃ u, SameEngine u s ∧ u.position = s.position ∧
      u.link.damagedCells = s.link.damagedCells ∧
      u.link.cellRx = some ⟨c.bytes ++ (f.map Frame.controlRow).getD (List.replicate 8 0), c.bad || bad⟩ ∧
      s.takePosition f bad = u.handover := by
  unfold State.takePosition
  dsimp only
  rw [if_pos last]
  refine ⟨_, ?engine, ?_, ?_, ?cell, rfl⟩
  case cell =>
    simp only [State.withLink_link, Link.receive, last, cell]
    cases f <;> rfl
  case engine => exact ⟨rfl, rfl⟩
  all_goals rfl

/-- R153, log 14: a position 31 that is damaged or missing damages the cell. -/
theorem State.takePosition_damages {s : State} {c : CellRx} (last : s.link.expected = 31) (cell : s.link.cellRx = some c)
    (f : Option Frame) : (s.takePosition f true).records = s.records ∧
      (s.takePosition f true).link.damagedCells = countUp s.link.damagedCells 1 := by
  obtain ⟨u, same, _, counted, received, hands⟩ := s.takePosition_hands last cell f true
  obtain ⟨records, damaged⟩ := State.handover_of_damaged received (.inl (Bool.or_true _))
  rw [hands, records, damaged, counted]
  exact ⟨same.records, rfl⟩

/-- R153: after position 31 no cell is being received or sent, and position 0 is expected. -/
theorem Positioned.last {s t : State} {f : Option Frame} {bad : Bool} (taken : Positioned s f bad t)
    (last : s.link.expected = 31) : t.link.cellRx = none ∧ t.link.cellTx = none ∧ t.link.expected = 0 :=
  ⟨taken.cellRx.trans (if_pos last), taken.cellTx.trans (if_pos last), taken.expected.trans (by rw [last])⟩

/-- Settles O15: at position 31 the cell is handed over, or counted damaged. -/
theorem completeCellReachesTheRecordEngine : Obligations.CompleteCellReachesTheRecordEngine := by
  refine ⟨fun f g s c released locked last whole cell => ?good, fun s c released locked last below cell =>
    ⟨fun f g damaged => ?damaged, ?missing⟩⟩
  case good =>
    have executes := exec_good released locked whole (by rw [last]; decide) g
    obtain ⟨empty, unsent, expected⟩ := ((s.countGood g).positioned (some f) false).last last
    obtain ⟨u, same, position, counted, received, hands⟩ := (s.countGood g).takePosition_hands last cell (some f) false
    have engine : SameEngine u (s.atArrival g) := ⟨same.records, same.block⟩
    refine ⟨_, executes, empty, unsent, expected, fun ⟨undamaged, check⟩ => ?_, fun damaged => ?_⟩
    · obtain ⟨records, cells⟩ := State.handover_of_whole received ⟨by simp [undamaged], check⟩
      rw [hands, records, cells, counted]
      exact ⟨(engine.takeCell position _).records, rfl⟩
    · obtain ⟨records, cells⟩ := State.handover_of_damaged received (damaged.imp_left (by simp [·]))
      rw [hands, records, cells, counted]
      exact ⟨same.records, rfl⟩
  case damaged =>
    have executes := exec_damaged released locked damaged g
    rw [State.badPosition_of_below (s := s.countDamaged g) below] at executes
    obtain ⟨empty, unsent, expected⟩ := ((s.countDamaged g).countBad.positioned (some f) true).last last
    exact ⟨_, executes, empty, unsent, expected, State.takePosition_damages (s := (s.countDamaged g).countBad) last cell _⟩
  case missing =>
    have executes := exec_gap released locked
    rw [State.badPosition_of_below (s := s.countMissing) below] at executes
    obtain ⟨empty, unsent, expected⟩ := (s.countMissing.countBad.positioned none true).last last
    exact ⟨_, executes, empty, unsent, expected, State.takePosition_damages (s := s.countMissing.countBad) last cell _⟩

/-! ### The loss of the link -/

/-- R57: an abandonment takes the pass in flight to the ending passes, and clears what it ran with. -/
theorem State.abandonPass_tapEngine (s : State) :
    (s.tap.pass ≠ none → s.abandonPass.tap.state = .idle ∧ s.abandonPass.tap.cutRun = 0 ∧
      s.abandonPass.tap.acc = List.replicate 16 (List.replicate 32 0)) ∧
    (s.tap.pass = none → s.abandonPass.tap = { s.tap with ending := s.abandonPass.tap.ending }) := by
  unfold State.abandonPass
  simp only [State.reapEnding, State.withTap_tap, State.withOut_tap, State.partialSaturation_keeps]
  cases pass : s.tap.pass with
  | none =>
    exact ⟨fun h => absurd rfl h, fun _ => rfl⟩
  | some p => exact ⟨fun _ => ⟨rfl, rfl, rfl⟩, nofun⟩

/-- R148: the node after a loss, but for its pass. -/
def State.unlinked (u : State) : State := { u with
  link := { u.link with
    state := .lost, gapTimer := .stopped, expected := (u.link.expected + 1) % 32, lostZero := false
    filling := [], complete := [], cellRx := none, cellTx := none
    lossEvents := countUp u.link.lossEvents 1, damagedCells := countUp u.link.damagedCells 1 }
  linkOut := none
  out := { u.out with recording := [], recorded := [] } }

/-- R57, R148: a loss abandons the pass, and the controller goes on. -/
theorem State.loseLink_eq (u : State) : u.loseLink = u.unlinked.abandonPass.advanceMem := rfl

theorem State.abandonPass_mem (s : State) : s.abandonPass.mem = s.mem := by simp

/-- R52, R57, R148: what a loss leaves of a node whose bad positions were counted. -/
theorem linkLost_loseLink {s u : State} (tap : u.tap = s.tap) (mem : u.mem = s.mem)
    (kept : u.store = s.store ∧ u.ramps = s.ramps ∧ u.gens = s.gens ∧ u.lines = s.lines ∧ u.dram = s.dram ∧
      u.position = s.position)
    (port : u.link.block = s.link.block ∧ u.link.held = s.link.held ∧ u.link.lossEvents = s.link.lossEvents ∧
      u.link.damagedCells = s.link.damagedCells) : LinkLost s u.loseLink := by
  obtain ⟨block, held, losses, cells⟩ := port
  have link := u.loseLink_link
  have tapEngine : u.loseLink.tap = u.unlinked.abandonPass.tap := rfl
  have tap' : u.unlinked.tap = s.tap := tap
  obtain ⟨noPass, cuts, _⟩ := u.unlinked.abandonPass_tap
  obtain ⟨inFlight, noneInFlight⟩ := u.unlinked.abandonPass_tapEngine
  have ending := u.unlinked.abandonPass_ending
  have waiting : abandonedPasses u.unlinked = abandonedPasses s := by
    unfold abandonedPasses
    rw [tap']
  have queue : u.unlinked.mem.queue = s.mem.queue := congrArg MemController.queue mem
  rw [← tapEngine] at noPass cuts inFlight noneInFlight ending
  rw [tap'] at cuts inFlight noneInFlight
  rw [waiting, queue] at ending
  refine ⟨?link, ?discarded, ?counted, ?forwarded, ⟨noPass, cuts, ending⟩, inFlight, noneInFlight, ?buffers, ?memory, ?kept⟩
  case link => rw [link]; exact ⟨rfl, rfl, block, held⟩
  case discarded => rw [link]; exact ⟨rfl, rfl, rfl, rfl⟩
  case counted => rw [link, losses, cells]; exact ⟨rfl, rfl⟩
  case forwarded => simp [State.loseLink]
  case buffers => rw [State.loseLink_output]; exact ⟨rfl, rfl⟩
  case memory => exact goesOn_of_advanceMem u.loseLink_eq (u.unlinked.abandonPass_mem.trans mem)
  case kept => simpa using kept

/-- Settles O14: the third bad position in a row loses the link, by a frame or by the timer. -/
theorem thirdBadPositionLosesTheLink : Obligations.ThirdBadPositionLosesTheLink := by
  refine ⟨fun f g s released locked third damaged => ?frame, fun s released locked third => ?timer⟩
  case frame =>
    have executes := exec_damaged released locked damaged g
    rw [State.badPosition_of_third (s := s.countDamaged g) third] at executes
    have link := (s.countDamaged g).countBad.loseLink_link
    refine ⟨_, executes, linkLost_loseLink rfl rfl ⟨rfl, rfl, rfl, rfl, rfl, rfl⟩ ⟨rfl, rfl, rfl, rfl⟩, ?_⟩
    rw [link]
    exact ⟨rfl, rfl⟩
  case timer =>
    have executes := exec_gap released locked
    rw [State.badPosition_of_third (s := s.countMissing) third] at executes
    have link := s.countMissing.countBad.loseLink_link
    refine ⟨_, executes, linkLost_loseLink rfl rfl ⟨rfl, rfl, rfl, rfl, rfl, rfl⟩ ⟨rfl, rfl, rfl, rfl⟩, ?_⟩
    rw [link]
    exact ⟨rfl, rfl⟩

end Sys2Proof.Machine
end

section
/-! PROOF. The tap engine and the close of its pass at a boundary (R12, R42, R45, R51 to R55, R57, R110, log 12, log 19). -/

namespace Sys2Proof.Machine

open Sys2Proof.Safety

/-! ### The close of a running pass -/

/-- R51: the accumulators that the FINISHING of a close reads. -/
def TapEngine.closingAcc (t : TapEngine) : List (List Acc) := if t.state = .writing then clearedAccumulators else t.acc

/-- R45: the write stage that a close leaves to hand over. -/
def TapEngine.closingWrite (t : TapEngine) (p : Pass) : Option WriteStage := if t.state = .writing then some p.write else none

/-- R45, R51 to R53: what the close of pass `p` leaves: the FINISHING of a state that reads as `u` does. -/
structure ClosesPass (u c v : State) (p : Pass) (swapped : Bool) : Prop where
  out : v.out = u.out
  store : v.store = u.store
  acc : v.tap.acc = u.tap.closingAcc
  ending : v.tap.ending = u.tap.ending
  forms : c.out = (v.finishPass p (u.tap.closingWrite p) swapped).out
  reports : c.store = (v.finishPass p (u.tap.closingWrite p) swapped).store
  waits : c.tap.ending = u.tap.ending ++ [⟨p.number, p.serial, u.tap.closingWrite p⟩]
  cuts : c.tap.cutCount = if u.tap.state = .finishing then u.tap.cutCount else countUp u.tap.cutCount 1
  run : c.tap.cutRun = if u.tap.state = .finishing then 0 else countUp u.tap.cutRun 1

/-- R52: a cut is counted, and changes nothing else of the tap engine. -/
theorem State.countCut_tap (u : State) (p : Pass) : (u.countCut p).tap = { u.tap with
    cutCount := countUp u.tap.cutCount 1, cutRun := countUp u.tap.cutRun 1 } := by
  unfold State.countCut
  dsimp only
  split <;> rfl

/-- R45, R51 to R54: the close of a pass by its state. -/
theorem State.closePass_closes {u : State} {p : Pass} (pass : u.tap.pass = some p) (running : u.tap.state ≠ .idle)
    (swapped : Bool) : ∃ v, ClosesPass u (u.closePass swapped) v p swapped := by
  unfold State.closePass
  rw [pass]
  dsimp only
  have tap (v : State) (w : Option WriteStage) := v.finishPass_tap swapped p w
  cases state : u.tap.state with
  | idle => exact absurd state running
  | finishing =>
    refine ⟨u, rfl, rfl, ?_, rfl, ?_, ?_, ?_, ?_, ?_⟩ <;>
      simp [TapEngine.closingAcc, TapEngine.closingWrite, state, State.finishUncut, tap]
  | writing =>
    refine ⟨(u.countCut p).withTap { (u.countCut p).tap with acc := clearedAccumulators }, ?_, ?_, ?_, ?_, ?_, ?_, ?_, ?_, ?_⟩ <;>
      simp [TapEngine.closingAcc, TapEngine.closingWrite, state, State.countCut_tap, tap]
  | tapping =>
    refine ⟨u.countCut p, ?_, ?_, ?_, ?_, ?_, ?_, ?_, ?_, ?_⟩ <;>
      simp [TapEngine.closingAcc, TapEngine.closingWrite, state, State.countCut_tap, tap]

/-- R51: no pass, no close. -/
theorem State.closePass_of_none {u : State} (pass : u.tap.pass = none) (swapped : Bool) : u.closePass swapped = u := by
  unfold State.closePass
  rw [pass]

/-! ### The tap engine of a boundary -/

section
variable (s : State) (b n : Block) (x : Bool)

/-- R45, R139: after a boundary the passes that still wait are the ones still ending. -/
theorem State.boundary_ending : (s.boundary b n x).tap.ending =
    (s.boundaryClosed b n x).tap.ending.filter (stillEnding s.mem.queue) ∧
    (s.boundary b n x).tap.cutCount = (s.boundaryClosed b n x).tap.cutCount := by
  obtain ⟨_, _, mem, _, _, _, _, _, _, _, _, _, _, _, tap, _⟩ := s.boundaryReady_keeps b n x
  have advanced (u : State) : u.reapEnding.advanceMem.tap.ending = u.tap.ending.filter (stillEnding u.mem.queue) ∧
      u.reapEnding.advanceMem.tap.cutCount = u.tap.cutCount := ⟨u.reapEnding_ending, rfl⟩
  rw [← tap, State.boundary_eq, ← mem]
  split
  · rw [State.beginPass_eq]
    exact advanced _
  · exact advanced _

/-- R42, R52: a boundary that begins no pass clears the cut run. -/
theorem State.boundary_cutRun (locked : s.link.state = .locked) : (s.boundary b n x).tap.cutRun =
    if x = false ∧ s.records.node ≠ .quiescent ∧ s.mem.state = .ready then (s.boundaryClosed b n x).tap.cutRun else 0 := by
  obtain ⟨_, _, _, _, _, _, _, _, _, _, _, _, _, _, tap, _⟩ := s.boundaryReady_keeps b n x
  simp only [← s.boundary_begins_iff b n x locked]
  rw [← tap, State.boundary_eq]
  split
  · rw [State.beginPass_eq]
    rfl
  · rfl

theorem State.boundarySwapped_tap : (s.boundarySwapped b n x).1.tap = (s.boundaryTurned b n x).tap := by
  simp [State.boundarySwapped]

/-- R58: at a renumber the abandoned pass is not closed. -/
theorem State.boundaryClosed_of_renumber : s.boundaryClosed b n true = (s.boundarySwapped b n true).1 := by
  obtain ⟨pass, _⟩ := (s.turnBlock n).abandonPass_tap
  refine State.closePass_of_none ?_ _
  rw [State.boundarySwapped_tap]
  exact pass

variable {s b n x} (locked : s.link.state = .locked) (none : x = true ∨ s.records.node = .quiescent ∨ s.mem.state ≠ .ready)
include locked none

/-- R12, R42: what a boundary that begins no pass leaves. -/
theorem State.boundary_begins_none : (s.boundary b n x).tap.pass = (s.boundaryClosed b n x).tap.pass ∧
    (s.boundary b n x).tap.state = (s.boundaryClosed b n x).tap.state ∧
    (s.boundary b n x).tap.cutRun = 0 ∧ (s.boundary b n x).lines = { s.lines with floor := n } ∧
    (s.boundary b n x).ramps = (s.boundaryClosed b n x).ramps := by
  obtain ⟨_, lines, _, _, _, _, _, _, _, _, _, _, _, _, tap, ramps, _⟩ := s.boundaryReady_keeps b n x
  have turned : { (s.boundaryTurned b n x).lines with floor := n } = { s.lines with floor := n } := by
    unfold State.boundaryTurned
    split
    · simp [State.renumber, State.turnBlock]
    · rfl
  rw [← tap, ← ramps, ← turned, ← lines, State.boundary_of_begins_not locked none]
  generalize s.boundaryReady b n x = u
  exact ⟨rfl, rfl, rfl, rfl, rfl⟩

end

theorem State.beforeBoundary_mem (s : State) (g : Bool) : (s.beforeBoundary g).mem = s.mem := rfl

/-- R41, R51, R57: a boundary closes or abandons the current pass. -/
theorem State.boundaryClosed_idle {s : State} (passes : PassMatchesState s) (b n : Block) (x : Bool) :
    (s.boundaryClosed b n x).tap.pass = none ∧ (s.boundaryClosed b n x).tap.state = .idle := by
  refine State.closePass_tap _ _ ?_
  rw [State.boundarySwapped_tap]
  unfold State.boundaryTurned
  split
  · exact State.abandonPass_matches (s := s.turnBlock n) passes
  · exact passes

/-- R87: the close and the swap of a boundary leave the master ramps. -/
theorem State.boundaryClosed_masters (s : State) (b n : Block) (x : Bool) :
    (s.boundaryClosed b n x).ramps.masters = s.ramps.masters := by
  obtain ⟨_, _, _, _, _, masters, _, _, _, _, _, _, _, _, _, ramps, _⟩ := s.boundaryReady_keeps b n x
  rw [← ramps, masters]

/-- R57, R58: what a renumber leaves of the tap engine and of the filling buffer before the buffers are exchanged. -/
theorem State.boundaryClosed_renumbered (s : State) (b n : Block) :
    (s.boundaryClosed b n true).tap = (s.turnBlock n).abandonPass.tap ∧
    (s.boundaryClosed b n true).out.filling = OutBuffer.zeros := by
  rw [State.boundaryClosed_of_renumber, State.boundarySwapped_tap, State.boundarySwapped_output, State.boundaryTurned_output]
  exact ⟨rfl, rfl⟩

/-- Settles O9: a boundary that begins no pass clears the run and sets the floor; a renumber abandons the pass. -/
theorem boundaryBeginsNoPass : Obligations.BoundaryBeginsNoPass := by
  refine ⟨fun f g s h matches' none => ?noPass, fun f g s h other => ?renumber⟩
  all_goals
    obtain ⟨t, executes, takes⟩ := exec_boundary_takes h g
    obtain ⟨_, (locked : (s.beforeBoundary g).link.state = .locked), _⟩ := id h
    have judged := rampsJudged_congr s (s.beforeBoundary g) f.block rfl rfl rfl (s.beforeBoundary_records g).node _
      (State.boundaryClosed_judges (s.beforeBoundary g) s.link.block f.block (f.block != s.link.block + 1))
  case noPass =>
    have none' : (f.block != s.link.block + 1) = true ∨ (s.beforeBoundary g).records.node = .quiescent ∨
        (s.beforeBoundary g).mem.state ≠ .ready := by
      rw [(s.beforeBoundary_records g).node, State.beforeBoundary_mem]
      simpa using none
    obtain ⟨pass, state, run, lines, ramps⟩ := State.boundary_begins_none (b := s.link.block) (n := f.block) locked none'
    obtain ⟨closed, idle⟩ := State.boundaryClosed_idle (s := s.beforeBoundary g) matches' s.link.block f.block
      (f.block != s.link.block + 1)
    refine ⟨t, executes, ?_, ?_, ?_, takes.lines.trans lines, ?_, ?_⟩
    · rw [takes.tap]
      exact pass.trans closed
    · rw [takes.tap]
      exact state.trans idle
    · rw [takes.tap]
      exact run
    · rw [takes.ramps]
      exact (congrArg Ramps.masters ramps).trans (State.boundaryClosed_masters _ _ _ _)
    · rw [takes.ramps]
      exact ramps ▸ judged
  case renumber =>
    have renumbers : (f.block != s.link.block + 1) = true := by simpa using other
    have tap := takes.tap
    have lines := takes.lines
    have ramps := takes.ramps
    have output := takes.output
    have block := takes.block
    rw [State.afterBoundary, renumbers] at tap lines ramps output block
    rw [renumbers] at judged
    obtain ⟨pass, _, run, lines', ramps'⟩ := State.boundary_begins_none (s := s.beforeBoundary g) (b := s.link.block)
      (n := f.block) locked (.inl rfl)
    obtain ⟨closed, filling⟩ := (s.beforeBoundary g).boundaryClosed_renumbered s.link.block f.block
    obtain ⟨ending, cuts⟩ := (s.beforeBoundary g).boundary_ending s.link.block f.block true
    obtain ⟨noPass, cuts', _⟩ := ((s.beforeBoundary g).turnBlock f.block).abandonPass_tap
    rw [State.boundary_output] at output
    refine ⟨t, executes, ?_, ?_, ?_, ?_, ?_, ?_, ?_, lines.trans lines', ?_⟩
    · rw [tap, pass, closed, noPass]
    · rw [output]
      exact filling
    · rw [output]
    · rw [tap, cuts, closed]
      exact cuts'
    · rw [tap]
      exact run
    · rw [block, State.boundary_link]
    · rw [tap, ending, closed, State.abandonPass_ending]
      exact (List.filter_filter ..).trans (List.filter_congr fun e _ => Bool.and_self _)
    · rw [ramps, ramps']
      exact judged

end Sys2Proof.Machine
end

section
/-! PROOF. A pass that a boundary cuts or lets finish, and what every boundary leaves (R45, R51 to R56, R71, R72, R110, R142
to R154). -/

namespace Sys2Proof.Machine

open Sys2Proof.Safety

/-! ### The pass that a boundary closes -/

/-- R37, R54, log 12: the report of a pass after the fade check. -/
theorem reported_of_checked (fade ready : Bool) (x : Snapshot) :
    ((if fade = true ∧ ready = true then false else ready) || ((fade && !ready) && x.fade && x.outgoingIdle)) =
      if fade = true ∧ ready = true then false else ready || (fade && x.fade && x.outgoingIdle) := by
  cases fade <;> cases ready <;> simp

theorem State.stepGenerators_store (u : State) (n : Block) : (u.stepGenerators n).store = u.store := by simp

/-- R55: before its pass is closed, a boundary that does not renumber leaves the tap engine, the groups and the counters. -/
theorem State.boundarySwapped_steady (u : State) (b n : Block) : (u.boundarySwapped b n false).1.tap = u.tap ∧
    (u.boundarySwapped b n false).1.out.groups = u.out.groups ∧
    (u.boundarySwapped b n false).1.out.saturation = u.out.saturation ∧
    (u.boundarySwapped b n false).1.out.filling = u.out.filling := by
  rw [State.boundarySwapped_tap, State.boundarySwapped_output]
  exact ⟨rfl, rfl, rfl, rfl⟩

section
variable {s t : State} {f : Frame} {g : Bool} (h : AtBoundary s f) (next : f.block = s.link.block + 1)
  (takes : TakesFirst (s.afterBoundary f g) t)
include next takes

/-- R55, R145: what a boundary that does not renumber takes over from its close. -/
theorem boundary_closed : t.out.insert = ((s.beforeBoundary g).boundaryClosed s.link.block f.block false).out.filling ∧
    t.out.groups = ((s.beforeBoundary g).boundaryClosed s.link.block f.block false).out.groups ∧
    t.out.saturation = ((s.beforeBoundary g).boundaryClosed s.link.block f.block false).out.saturation ∧
    t.store = ((s.beforeBoundary g).boundaryClosed s.link.block f.block false).store ∧
    t.tap.ending = ((s.beforeBoundary g).boundaryClosed s.link.block f.block false).tap.ending.filter
      (stillEnding s.mem.queue) ∧
    t.tap.cutCount = ((s.beforeBoundary g).boundaryClosed s.link.block f.block false).tap.cutCount := by
  have advances : (f.block != s.link.block + 1) = false := by simp [next]
  obtain ⟨ending, cuts⟩ := (s.beforeBoundary g).boundary_ending s.link.block f.block false
  have tap := takes.tap
  have output := takes.output
  have store := takes.store
  rw [State.afterBoundary, advances] at tap output store
  rw [State.boundary_output] at output
  rw [tap, output, store, State.boundary_store, ending, cuts]
  exact ⟨rfl, rfl, rfl, rfl, rfl, rfl⟩

include h

/-- R42, R52: the cut run after a boundary that does not renumber. -/
theorem boundary_run : t.tap.cutRun = if s.records.node ≠ .quiescent ∧ s.mem.state = .ready then
    ((s.beforeBoundary g).boundaryClosed s.link.block f.block false).tap.cutRun else 0 := by
  obtain ⟨_, locked, _⟩ := h
  have advances : (f.block != s.link.block + 1) = false := by simp [next]
  have run := (s.beforeBoundary g).boundary_cutRun s.link.block f.block false locked
  have tap := takes.tap
  rw [State.afterBoundary, advances] at tap
  rw [tap, run, (s.beforeBoundary_records g).node]
  simp only [true_and]
  rfl

/-- R45, R51 to R54, R110, log 12: what the close of a running pass leaves. -/
theorem passCloses_of_boundary {p : Pass} (pass : s.tap.pass = some p) (running : s.tap.state ≠ .idle) :
    PassCloses s t p s.tap.closingAcc (s.tap.closingWrite p) ∧
    t.tap.cutCount = (if s.tap.state = .finishing then s.tap.cutCount else countUp s.tap.cutCount 1) ∧
    t.tap.cutRun = if s.records.node ≠ .quiescent ∧ s.mem.state = .ready then
      (if s.tap.state = .finishing then 0 else countUp s.tap.cutRun 1) else 0 := by
  obtain ⟨insert, groups, saturation, store, ending, cuts⟩ := boundary_closed next takes
  have run := boundary_run h next takes
  obtain ⟨tap, groups', saturation', _⟩ := (s.beforeBoundary g).boundarySwapped_steady s.link.block f.block
  have tap : ((s.beforeBoundary g).boundarySwapped s.link.block f.block false).1.tap = s.tap := tap
  obtain ⟨v, out, stores, acc, _, forms, reports, waits, counted, runs⟩ := State.closePass_closes
    (u := ((s.beforeBoundary g).boundarySwapped s.link.block f.block false).1) (by rw [tap]; exact pass)
    (by rw [tap]; exact running) ((s.beforeBoundary g).boundarySwapped s.link.block f.block false).2
  rw [← State.boundaryClosed] at forms reports waits counted runs
  rw [tap] at acc forms reports waits counted runs
  have group (k : Fin 4) : v.out.group k.val =
      { s.out.group k.val with bTripped := (s.out.group k.val).sampledTrip g } := by
    rw [Output.group, out, groups']
    exact s.atArrival_groups g k
  have detected (k : Fin 4) : t.out.group k.val = { (s.out.group k.val).detect
      (groupPeak p.snapshot.groups (p.values s.tap.closingAcc) k) with
        bTripped := (s.out.group k.val).sampledTrip g } := by
    have formed := v.finishPass_group p (s.tap.closingWrite p)
      ((s.beforeBoundary g).boundarySwapped s.link.block f.block false).2 k
    rw [group, acc, GuardGroup.detect_bTripped] at formed
    rw [Output.group, groups, forms]
    exact formed
  refine ⟨⟨?values, fun k => ?groups, fun k => ?verdicts, fun c channel => ?saturation, ?ending, fun waiting => ?report⟩,
    cuts.trans counted, run.trans (by rw [runs])⟩
  case values =>
    obtain ⟨values, _⟩ := v.finishPass_buffers p (s.tap.closingWrite p)
      ((s.beforeBoundary g).boundarySwapped s.link.block f.block false).2
    rw [insert, forms, values, acc]
  case groups => rw [detected]
  case verdicts =>
    have verdict := v.finishPass_verdict p (s.tap.closingWrite p)
      ((s.beforeBoundary g).boundarySwapped s.link.block f.block false).2 k
    have trip := congrArg GuardGroup.aTripped (show t.out.group k.val = (v.finishPass p (s.tap.closingWrite p)
      ((s.beforeBoundary g).boundarySwapped s.link.block f.block false).2).out.group k.val by
        rw [Output.group, groups, forms]; rfl)
    rw [group, ← trip] at verdict
    rw [insert, forms]
    exact verdict
  case saturation =>
    have counts := v.finishPass_saturation p (s.tap.closingWrite p)
      ((s.beforeBoundary g).boundarySwapped s.link.block f.block false).2 channel
    rw [acc, out, saturation'] at counts
    rw [saturation, forms]
    exact counts
  case ending => rw [ending, waits]
  case report =>
    have block : t.link.block = f.block := by rw [takes.block, State.afterBoundary_link]
    rw [block] at waiting
    have swapped := State.boundarySwapped_of_waits (s := s.beforeBoundary g) (b := s.link.block) (x := false)
      fun w pending comes => waiting w pending ((s.comesDue_beforeBoundary w f.block g).1 comes)
    rw [swapped] at stores reports
    have unswapped : (((s.beforeBoundary g).boundaryTurned s.link.block f.block false).stepGenerators f.block).store =
        s.store := by
      obtain ⟨turned, _⟩ := (s.beforeBoundary g).boundaryTurned_keeps s.link.block f.block false
      exact (State.stepGenerators_store _ _).trans turned
    rw [store, reports, State.finishPass_report, stores, State.fadeCheck_store, unswapped]
    exact reported_of_checked s.store.fade s.store.endReady p.snapshot

end

end Sys2Proof.Machine
end

section
/-! PROOF. What every boundary leaves: its blocks, its notices and its pass (R29, R52 to R56, R122, R145 to R154, log 10). -/

namespace Sys2Proof.Machine

open Sys2Proof.Safety

/-! ### A pass that is cut -/

/-- Settles O10: a boundary cuts a pass in WRITING or TAPPING. -/
theorem boundaryCutsTheRunningPass : Obligations.BoundaryCutsTheRunningPass := by
  intro f g s p h next pass running
  have other : s.tap.state ≠ .finishing := by rcases running with state | state <;> simp [state]
  have idle : s.tap.state ≠ .idle := by rcases running with state | state <;> simp [state]
  obtain ⟨t, executes, takes⟩ := exec_boundary_takes h g
  obtain ⟨closes, cuts, run⟩ := passCloses_of_boundary h next takes pass idle
  rw [if_neg other] at cuts run
  refine ⟨fun begins => ?_, t, executes, cuts, run, closes⟩
  have cut : Notice.cut (p.number + 2) p.done p.snapshot.due ∈ closeNotices s := by
    unfold closeNotices cutNotices
    rcases running with state | state <;> simp [pass, state, begins]
  unfold boundaryNotices
  rw [if_pos next, if_pos next]
  exact List.mem_append_left _ (List.mem_append_right _ cut)

/-! ### The notices of a boundary -/

/-- The samples of an arrival leave what the close of a pass queues. -/
theorem State.closeNotices_beforeBoundary (s : State) (g : Bool) : closeNotices (s.beforeBoundary g) = closeNotices s := by
  have detected (p : Pass) (acc : List (List Acc)) :
      detectorNotices (s.beforeBoundary g).out p acc = detectorNotices s.out p acc :=
    detectorNotices_congr _ _ p acc fun k => ⟨_, s.atArrival_groups g k⟩
  have tap : (s.beforeBoundary g).tap = s.tap := rfl
  have cut (p : Pass) : cutNotices (s.beforeBoundary g) p = cutNotices s p := rfl
  simp only [closeNotices, tap, cut, detected]

/-- The samples of an arrival leave what the swap and the drain of a boundary queue. -/
theorem State.swapNotices_beforeBoundary (s : State) (g : Bool) (n : Block) :
    swapNotices (s.beforeBoundary g) n = swapNotices s n ∧ muteNotices (s.beforeBoundary g) n = muteNotices s n := by
  have same := s.beforeBoundary_records g
  have store : (s.beforeBoundary g).store = s.store := rfl
  have served : (s.beforeBoundary g).served = s.served := by
    simp only [State.served, State.gensStep, same.node]
    rfl
  constructor
  · simp only [swapNotices, store, served]
  · simp only [muteNotices, same.node, same.drain, same.awaitingMute]

/-- Log 10: what the arrival of a boundary frame queues. -/
theorem State.afterBoundary_queues {s : State} (locked : s.link.state = .locked) (f : Frame) (g : Bool) :
    Queues s.records (boundaryNotices s f g) (s.afterBoundary f g).records := by
  have sampled : Queues s.records (lineNotices s g) (s.beforeBoundary g).records := by
    rw [show (s.beforeBoundary g).records = _ from s.atArrival_notices g]
    exact Queues.all _ _
  have turned := (s.beforeBoundary g).boundary_queues f.block (f.block != s.link.block + 1) locked
  obtain ⟨swap, mute⟩ := s.swapNotices_beforeBoundary g f.block
  rw [s.closeNotices_beforeBoundary, swap, mute, (s.beforeBoundary_records g).node] at turned
  have all := sampled.trans turned
  unfold boundaryNotices
  have ordered {a b c d e l : List Notice} : l ++ a ++ b ++ c ++ d ++ e = l ++ (a ++ b ++ c ++ d ++ e) := by
    simp only [List.append_assoc]
  rw [ordered]
  by_cases next : f.block = s.link.block + 1
  · have advances : (f.block != s.link.block + 1) = false := by simp [next]
    rw [advances] at all
    rw [if_pos next, if_pos next, State.afterBoundary, advances]
    exact all
  · have renumbers : (f.block != s.link.block + 1) = true := bne_iff_ne.2 next
    rw [renumbers] at all
    rw [if_neg next, if_neg next, State.afterBoundary, renumbers]
    exact all

/-! ### The controller -/

theorem State.beginPass_mem (u : State) (b : Block) : (u.beginPass b).reapEnding.mem = u.mem := by simp

theorem State.beginNoPass_mem (u : State) (n : Block) : (u.beginNoPass n).reapEnding.mem = u.mem := by simp

/-- R134: the controller goes on with the passes as the boundary leaves them. -/
theorem goesOn_of_boundary {s t : State} {f : Frame} {g : Bool} (takes : TakesFirst (s.afterBoundary f g) t) : GoesOn s.mem t := by
  obtain ⟨u, ends, mem⟩ : ∃ u : State, s.afterBoundary f g = u.advanceMem ∧ u.mem = s.mem := by
    obtain ⟨_, _, mem, _⟩ := (s.beforeBoundary g).boundaryReady_keeps s.link.block f.block (f.block != s.link.block + 1)
    refine ⟨_, State.boundary_eq _ _ _ _, ?_⟩
    split
    · exact (State.beginPass_mem _ _).trans mem
    · exact (State.beginNoPass_mem _ _).trans mem
  have tap := takes.tap
  have advanced := takes.mem
  rw [ends] at tap advanced
  have count : t.passCount = u.passCount := by
    unfold State.passCount
    rw [tap]
    rfl
  rw [← mem]
  refine u.mem.advance_goesOn t ?_
  rw [count]
  exact advanced

theorem State.placeNotice_overflow (u : State) (f : Frame) : (u.placeNotice f).records.overflow = u.records.overflow := by
  by_cases idle : f.controlRow.getD 0 0 = 0
  · rw [State.placeNotice_of_idle _ idle]
  · rw [State.placeNotice_of_busy _ idle]

/-- What no boundary changes. -/
theorem State.afterBoundary_rest (s : State) (f : Frame) (g : Bool) : (s.afterBoundary f g).dram = s.dram ∧
    (s.afterBoundary f g).position = s.position ∧ (s.afterBoundary f g).resetPin = s.resetPin := by
  obtain ⟨_, pin, position, _, dram, _⟩ :=
    (s.beforeBoundary g).boundary_keeps s.link.block f.block (f.block != s.link.block + 1)
  exact ⟨dram, position, pin⟩

/-- Settles O7: what every boundary leaves. -/
theorem boundaryTurnsTheBlock : Obligations.BoundaryTurnsTheBlock := by
  refine ⟨fun f g s h => ?turns, fun f g s h next => ?closes, fun f g s h => ?notices⟩
  case turns =>
    have executes := exec_boundary h g
    have link := s.afterBoundary_link f g
    have taken := State.afterBoundary_takeFirst h g
    obtain ⟨released, locked, first, _, _⟩ := h
    have takes := State.takesFirst (s.afterBoundary f g) f (by rw [link]; exact first)
    obtain ⟨dram, position, pin, _⟩ := takes.rest
    have port : ((s.afterBoundary f g).takeFirst f).link = { s.link with
        gapTimer := .oneAndHalfPeriods, complete := s.link.filling, block := f.block, badRun := 0, lostZero := false
        filling := [f.row], held := f.row, cellRx := some ⟨f.controlRow, false⟩, expected := 1
        cellTx := ((s.afterBoundary f g).placeNotice f).link.cellTx } := by
      rw [taken, link]
    have output := State.boundary_output (s.beforeBoundary g) s.link.block f.block (f.block != s.link.block + 1)
    rw [← State.afterBoundary] at output
    have out := takes.output
    rw [output] at out
    have goesOn := goesOn_of_boundary takes
    clear takes taken link
    generalize (s.afterBoundary f g).takeFirst f = t at executes dram position pin port out goesOn
    obtain ⟨dram', position', pin'⟩ := s.afterBoundary_rest f g
    refine ⟨t, executes, ?_⟩
    rw [port, out]
    refine ⟨locked, rfl, rfl, rfl, rfl, rfl, rfl, rfl, rfl, rfl, rfl, fun c channel => getD_tab _ _ _ _ channel,
      fun c channel => ?_, rfl, rfl, dram.trans dram', position.trans position', pin.trans (pin'.trans released), goesOn⟩
    rw [← State.atArrival_silence s g channel]
    exact getD_tab 16 (fun c => ((s.atArrival g).out.silencePending.getD c none).getD
      ((s.atArrival g).out.silence.getD c false)) false c channel
  case closes =>
    obtain ⟨t, executes, takes⟩ := exec_boundary_takes h g
    refine ⟨t, executes, fun none => ?_, fun p pass finishing => ?_⟩
    · obtain ⟨insert, _, _, _, ending, _⟩ := boundary_closed next takes
      obtain ⟨tap, _, _, filling⟩ := (s.beforeBoundary g).boundarySwapped_steady s.link.block f.block
      have closed : (s.beforeBoundary g).boundaryClosed s.link.block f.block false =
          ((s.beforeBoundary g).boundarySwapped s.link.block f.block false).1 :=
        State.closePass_of_none (by rw [tap]; exact none) _
      rw [insert, ending, closed, tap, filling]
      exact ⟨rfl, rfl⟩
    · obtain ⟨closes, cuts, run⟩ := passCloses_of_boundary h next takes pass (by simp [finishing])
      have acc : s.tap.closingAcc = s.tap.acc := if_neg (by simp [finishing])
      have write : s.tap.closingWrite p = none := if_neg (by simp [finishing])
      rw [acc, write] at closes
      rw [if_pos finishing] at cuts run
      exact ⟨closes, cuts, run.trans (ite_self 0)⟩
  case notices =>
    obtain ⟨_, locked, _⟩ := id h
    obtain ⟨queued, overflow⟩ := State.afterBoundary_queues locked f g
    have executes := exec_boundary h g
    rw [State.afterBoundary_takeFirst h g] at executes
    have cell : (s.afterBoundary f g).link.cellTx = s.link.cellTx := by rw [State.afterBoundary_link]
    obtain ⟨_, position, _⟩ := s.afterBoundary_rest f g
    dsimp only
    rw [← queued, ← overflow]
    refine ⟨_, executes, (s.afterBoundary f g).placeNotice_overflow f, fun idle => ?_, fun busy => ?_⟩
    · rw [State.placeNotice_of_idle _ idle, cell, position]
      refine ⟨rfl, ?_⟩
      dsimp only
      cases (s.afterBoundary f g).records.notices <;> rfl
    · rw [State.placeNotice_of_busy _ busy]
      exact ⟨rfl, cell⟩

end Sys2Proof.Machine
end

section
/-! PROOF. The start of a pass at a boundary: its snapshot, and the step of the ramps (R41 to R44, R47, R81, R86). -/

namespace Sys2Proof.Machine

open Sys2Proof.Safety

/-! ### The snapshot -/

section
variable (s : State)

/-- R43: a bank plays where it is ACTIVE, and both do during a fade. -/
theorem Store.plays_iff (t : Store) (k : BankNo) : t.plays k = true ↔ t.active = k ∨ t.fade = true := by
  rw [Store.plays, Bool.or_eq_true, beq_iff_eq]
  exact or_congr_left eq_comm

/-- R43, R81: the gains of the snapshot. -/
theorem State.snapshot_gains :
    s.snapshot.gains0 = (if s.store.active = 0 ∨ s.store.fade = true then s.ramps.taps0.map (Option.map Ramp.gains) else []) ∧
    s.snapshot.gains1 = (if s.store.active = 1 ∨ s.store.fade = true then s.ramps.taps1.map (Option.map Ramp.gains) else []) :=
  ⟨if_congr (s.store.plays_iff 0) rfl rfl, if_congr (s.store.plays_iff 1) rfl rfl⟩

/-- R81: the ramps after a step. -/
theorem State.stepAllRamps_eq : s.stepAllRamps.ramps = { s.ramps with
    taps0 := if s.store.active = 0 ∨ s.store.fade = true then s.ramps.taps0.map (Option.map Ramp.step) else s.ramps.taps0
    taps1 := if s.store.active = 1 ∨ s.store.fade = true then s.ramps.taps1.map (Option.map Ramp.step) else s.ramps.taps1
    masters := s.ramps.masters.map Ramp.step } := by
  simp only [State.stepAllRamps, Store.plays_iff]
  rfl

/-- R43: the taps due of the snapshot. -/
theorem State.snapshot_due : s.snapshot.due = (s.store.bank s.store.active).countP Option.isSome +
    (if s.store.fade = true then (s.store.bank (otherBank s.store.active)).countP Option.isSome else 0) := by
  simp only [List.countP_eq_length_filter]
  rfl

/-- R86: every ramp of a bank is idle. -/
theorem allIdle_iff (x : List (Option Ramp)) : allIdle x = true ↔ ∀ m, some m ∈ x → m.p = m.len := by
  have idle (m : Ramp) : m.idle = true ↔ m.p = m.len := by simp [Ramp.idle]
  rw [allIdle, List.all_eq_true]
  constructor
  · exact fun all m mem => (idle m).1 (all _ mem)
  · rintro all (_ | m) mem
    · rfl
    · exact (idle m).2 (all m mem)

/-- R43, R86: the snapshot tells whether every outgoing ramp is idle after the step. -/
theorem State.snapshot_outgoingIdle : s.snapshot.outgoingIdle = true ↔ s.store.fade = true ∧
    ∀ m, some m ∈ s.stepAllRamps.ramps.taps (otherBank s.store.active) → m.p = m.len := by
  have both : s.snapshot.outgoingIdle = true ↔ s.store.fade = true ∧
      allIdle (stepRamps (s.ramps.taps (otherBank s.store.active))) = true := Bool.and_eq_true_iff
  rw [both, allIdle_iff, State.stepAllRamps_taps]
  refine and_congr_right fun fade => ?_
  rw [if_pos ((s.store.plays_iff _).2 (.inr fade))]

/-- R43: the override modes and the LINE-MONITOR lines of the snapshot. -/
theorem State.snapshot_channel {c : Nat} (channel : c < 16) :
    s.snapshot.overrides.getD c .follow = (s.store.channel c).override ∧
    s.snapshot.monitors.getD c none =
      if (s.store.channel c).override = .lineMonitor then some (s.store.channel c).monitorLine else none :=
  ⟨getD_tab _ _ _ _ channel, getD_tab 16 (fun c => if (s.store.channel c).override = .lineMonitor then
    some (s.store.channel c).monitorLine else none) none c channel⟩

/-- R47: the monitor reads of a pass, in ascending order of channel. -/
theorem monitorReads_eq (monitors : List (Option (Fin 64))) : monitorReads monitors =
    (List.finRange 16).filterMap fun c => (monitors.getD c.val none).map fun l => ⟨c, l, 0, []⟩ := by
  have channels : List.finRange 16 = [0, 1, 2, 3, 4, 5, 6, 7, 8, 9, 10, 11, 12, 13, 14, 15] := by decide
  rw [channels]
  rfl

end

/-- R42, R43: what a boundary that begins a pass begins it from. -/
theorem State.boundaryReady_begins (s : State) (b n : Block) :
    (s.boundaryReady b n false).lines = s.lines ∧ (s.boundaryReady b n false).link.complete = s.link.filling ∧
    (s.boundaryReady b n false).out.recorded = s.out.recording ∧
    (s.boundaryReady b n false).ramps.masters = s.ramps.masters ∧
    (s.boundaryReady b n false).store.channels = s.store.channels ∧
    (s.boundaryReady b n false).out.copy = tab 16 fun c => ⟨(s.store.channel c).slot, (s.store.channel c).group⟩ := by
  obtain ⟨_, lines, _, _, _, masters, _, _, channels, recorded, _, _, _, copy, _⟩ := s.boundaryReady_keeps b n false
  refine ⟨lines, ?_, recorded, masters, channels, copy⟩
  rw [State.boundaryReady_link]

theorem map_tab {α β : Type} (f : α → β) (n : Nat) (h : Nat → α) : (tab n h).map f = tab n fun i => f (h i) := by
  simp [tab]

/-- Settles O8: a boundary begins a pass from the state that its swap and its drain leave. -/
theorem boundaryBeginsAPass : Obligations.BoundaryBeginsAPass := by
  intro f g s h next plays ready
  obtain ⟨t, executes, takes⟩ := exec_boundary_takes h g
  obtain ⟨_, locked, _⟩ := h
  have advances : (f.block != s.link.block + 1) = false := by simp [next]
  have begins := State.boundary_of_begins (s := s.beforeBoundary g) (b := s.link.block) (n := f.block) locked
    (by rw [(s.beforeBoundary_records g).node]; exact plays) ready
  rw [← advances] at begins
  rw [State.afterBoundary, begins, advances, State.beginPass_eq] at takes
  obtain ⟨_, _, _, _, _, _, _, _, _, _, _, _, _, _, _, ramps, _⟩ :=
    (s.beforeBoundary g).boundaryReady_keeps s.link.block f.block false
  have judged := rampsJudged_congr s (s.beforeBoundary g) f.block rfl rfl rfl (s.beforeBoundary_records g).node _
    (State.boundaryClosed_judges (s.beforeBoundary g) s.link.block f.block false)
  rw [← ramps] at judged
  obtain ⟨lines, complete, recorded, masters, channels, copy⟩ :=
    (s.beforeBoundary g).boundaryReady_begins s.link.block f.block
  generalize (s.beforeBoundary g).boundaryReady s.link.block f.block false = u at *
  have tap : t.tap.pass = some (u.newPass s.link.block) ∧ t.tap.state = .writing ∧ t.tap.number = s.link.block := by
    rw [takes.tap]
    exact ⟨rfl, rfl, rfl⟩
  obtain ⟨pass, state, number⟩ := tap
  have store : t.store = u.store := takes.store
  have gens : t.gens = u.gens := takes.gens
  have stepped : t.ramps = u.stepAllRamps.ramps := takes.ramps
  obtain ⟨gains0, gains1⟩ := u.snapshot_gains
  have channel (c : Nat) : u.store.channel c = s.store.channel c := by
    unfold Store.channel
    rw [channels]
    rfl
  refine ⟨t, u.newPass s.link.block, u.ramps, executes, judged, pass, state, number, rfl, ?write, ?counters, ?active, ?fade,
    ?floor, ?masters, ?steps, takes.lines.trans lines, ?gains0, ?gains1, ?ramps, fun c below => ⟨?override, ?monitor, ?group⟩,
    ?due, ?idle, monitorReads_eq _, rfl, rfl, rfl⟩
  case write =>
    show WriteStage.mk _ u.lines.map u.link.complete u.out.recorded 0 = _
    rw [lines, complete, recorded]
    rfl
  case counters => rw [gens]; rfl
  case active => rw [store]; rfl
  case fade => rw [store]; rfl
  case floor => exact congrArg Lines.floor lines
  case masters => exact congrArg (List.map Ramp.gains) masters
  case steps =>
    rw [stepped, State.stepAllRamps_eq]
    exact congrArg (List.map Ramp.step) masters
  case gains0 => rw [store]; exact gains0
  case gains1 => rw [store]; exact gains1
  case ramps =>
    rw [stepped, store, State.stepAllRamps_eq]
    rfl
  case override =>
    rw [← channel]
    exact (u.snapshot_channel below).1
  case monitor =>
    rw [← channel]
    exact (u.snapshot_channel below).2
  case group =>
    show (u.out.copy.map ChannelCopy.group).getD c none = _
    rw [copy, map_tab]
    exact getD_tab _ _ _ _ below
  case due => rw [store]; exact u.snapshot_due
  case idle => rw [store, stepped]; exact u.snapshot_outgoingIdle

end Sys2Proof.Machine
end
